-- ==== Sys2Proof/Word.lean ====
section
/-!
DEFINITION. The word types of MBF-Framer: the byte and the 7-bit data group (rules R5, R7).
-/

namespace Sys2Proof

/-- A byte is 8 bits, bit 0 the least significant (R5, R7). -/
abbrev Byte := BitVec 8

/-- A data group is 7 bits: what a data byte carries in bits 6:0 (R5, R32). -/
abbrev Group := BitVec 7

end Sys2Proof
end

