-- ==== Sys2Proof/Config.lean ====
section
/-!
DEFINITION. What an implementation fixes, and the values the spec leaves free.
-/

namespace Sys2Proof.Config

/-- The capacity `CAP` that `State.reset` is built with.
DESIGN CHOICE (log 1): the spec leaves `CAP` open with `CAP >= 3` (R5, D1); 64 is the value its own test vectors start
from. The capacity is a field of `State`, so every statement over states quantifies over it and none rests on 64. -/
def cap : Nat := 64

/-- FREE VALUE of the reference consumer (log 13): the group a payload is read to hold at an index it does not reach.
The spec states no result for a report that is too short (R142, N10); nothing constrains this value. -/
opaque absentPayloadGroup : List Group → Nat → Group

end Sys2Proof.Config
end

