-- ==== Sys2Proof/Syntax.lean ====
section
/-!
DEFINITION. The instructions of MBF-Framer: the wire messages the framer frames and the operations of the unpacker.
One constructor per row of `spec/opcode_table.json`.
-/

namespace Sys2Proof

/-- The span of a channel message's command byte (R43, R46): the data bytes that follow it, and whether a later command
byte closes the segment. An open segment is the last one in the buffer. -/
structure Span where
  data : List Group
  closed : Bool
  deriving DecidableEq, Repr

/-- A 0xF0 segment from which no message can be made (R102): the three cases of SYSEX_START other than the
well-formed one, which is the row of its subcommand. -/
inductive SysexForm where
  /-- No command byte follows in the valid bytes (R103). -/
  | unfinished (data : List Group)
  /-- The next command byte is not 0xF7 (R105). -/
  | unterminated (data : List Group)
  /-- The bytes `F0 F7` (R106). -/
  | empty
  deriving DecidableEq, Repr

/-- One instruction, with its operands as the framer or the caller of the unpacker presents them. -/
inductive Instr where
  -- 41_channel_commands.md, rules R81 to R99
  | unassigned8x (chan : BitVec 4) (span : Span)
  | digitalUpdate (chan : BitVec 4) (span : Span)
  | unassignedAx (chan : BitVec 4) (span : Span)
  | unassignedBx (chan : BitVec 4) (span : Span)
  | analogStreamToggle (chan : BitVec 4) (span : Span)
  | digitalStreamToggle (chan : BitVec 4) (span : Span)
  | analogUpdate (chan : BitVec 4) (span : Span)
  -- 42_sysex.md, rule R102: a 0xF0 that yields no message
  | sysexStart (form : SysexForm)
  | unassignedF1 (span : Span)
  | unassignedF2 (low : BitVec 1) (span : Span)
  | setPinMode (span : Span)
  | setDigitalPin (span : Span)
  | unassignedF6 (span : Span)
  | sysexEnd (span : Span)
  | unassignedF8 (span : Span)
  | protocolVersion (span : Span)
  | unassignedFA (low : BitVec 1) (span : Span)
  | unassignedFC (low : BitVec 1) (span : Span)
  | unassignedFE (span : Span)
  | systemReset (span : Span)
  -- 42_sysex.md, rules R111 to R120: a well-formed sysex with its subcommand
  | sxClearDisplay (payload : List Group)
  | sxShowDisplay (payload : List Group)
  | sxPlotPixel (payload : List Group)
  | sxScrollString (payload : List Group)
  | sxScrollInteger (payload : List Group)
  | sxSetTouchMode (payload : List Group)
  | sxReportEvent (payload : List Group)
  | sxDebugString (payload : List Group)
  | sxReportFirmware (payload : List Group)
  | sxOther (sub : Group) (payload : List Group)
  -- 43_unpacker.md, rules R124 to R129
  | u14 (g0 g1 : Group)
  | s14 (g0 g1 : Group)
  | u21 (g0 g1 g2 : Group)
  | u32 (g0 g1 g2 g3 g4 : Group)
  | s32 (g0 g1 g2 g3 g4 : Group)
  | pair (groups : List Group)
  deriving DecidableEq, Repr

/-- The two things that are decoded: the bytes of the stream from a command byte to the end of the valid bytes (unit
F), and a call of the unpacker, a select code with the bytes fed to its lanes (unit U, R56). -/
inductive Code where
  | stream (bytes : List Byte)
  | call (op : BitVec 3) (lanes : List Byte)
  deriving DecidableEq, Repr

end Sys2Proof
end

