-- ==== Sys2Proof/WellFormed.lean ====
section
/-!
DEFINITION. Which terms of `Instr` are instructions of the table.
-/

namespace Sys2Proof

/-- The subcommands that have a row of their own (R51). -/
def assignedSubs : List Group :=
  [0x01#7, 0x02#7, 0x03#7, 0x04#7, 0x05#7, 0x06#7, 0x0D#7, 0x0E#7, 0x79#7]

/-- SX_OTHER is any subcommand without a row of its own (R120). Every other operand is of a type that holds exactly what
its encoding admits. -/
def Instr.wf : Instr → Bool
  | .sxOther sub _ => !assignedSubs.contains sub
  | _ => true

/-- The cells a segment needs in the buffer for the framer to see it as this instruction, the command byte that closes
it included (R41, R109). A call of the unpacker needs none. -/
def Instr.cells : Instr → Nat
  | .unassigned8x _ sp | .digitalUpdate _ sp | .unassignedAx _ sp | .unassignedBx _ sp
  | .analogStreamToggle _ sp | .digitalStreamToggle _ sp | .analogUpdate _ sp
  | .unassignedF1 sp | .unassignedF2 _ sp | .setPinMode sp | .setDigitalPin sp | .unassignedF6 sp
  | .sysexEnd sp | .unassignedF8 sp | .protocolVersion sp | .unassignedFA _ sp | .unassignedFC _ sp
  | .unassignedFE sp | .systemReset sp => 1 + sp.data.length + sp.closed.toNat
  | .sysexStart (.unfinished d) => 1 + d.length
  | .sysexStart (.unterminated d) => 2 + d.length
  | .sysexStart .empty => 2
  | .sxClearDisplay p | .sxShowDisplay p | .sxPlotPixel p | .sxScrollString p | .sxScrollInteger p
  | .sxSetTouchMode p | .sxReportEvent p | .sxDebugString p | .sxReportFirmware p | .sxOther _ p => 3 + p.length
  | .u14 _ _ | .s14 _ _ | .u21 _ _ _ | .u32 _ _ _ _ _ | .s32 _ _ _ _ _ | .pair _ => 0

/-- The instruction can stand in a buffer of `cap` cells (R41: a longer message is never framed). -/
def Instr.fits (cap : Nat) (i : Instr) : Bool := decide (i.cells ≤ cap)

end Sys2Proof
end

