-- ==== Sys2Proof/Decode.lean ====
section
/-!
DEFINITION. The decoder, total on any bytes, and the encoder, both written from the table of rules R49, R51, R56 and the
formats of rules R43, R44, R55.
-/

namespace Sys2Proof

/-! ## Bytes -/

/-- A byte with bit 7 set is a command byte, every other byte a data byte (R42). -/
def isCommand (b : Byte) : Bool := b.getLsbD 7

/-- `b[6:0]`: the group a data byte carries; for a byte fed to an unpacker lane bit 7 is not presented (R130). -/
def groupOf (b : Byte) : Group := b.setWidth 7

/-- The data byte that carries a group: bit 7 clear. -/
def byteOf (g : Group) : Byte := g.setWidth 8

/-- The data bytes at the head of `bs`, as groups (the span of R46). -/
def dataPrefix : List Byte → List Group
  | [] => []
  | b :: bs => if isCommand b then [] else groupOf b :: dataPrefix bs

/-- What stands after the data bytes at the head of `bs`: nothing, or a list that begins with a command byte. -/
def afterData : List Byte → List Byte
  | [] => []
  | b :: bs => if isCommand b then b :: bs else afterData bs

/-! ## The decoder -/

/-- Why bytes, or a call of the unpacker, are no instruction. -/
inductive DecodeError where
  /-- There is no byte. -/
  | noByte
  /-- The first byte is a data byte: it starts no message (R42, R79). -/
  | dataByte (b : Byte)
  /-- The byte matches no row of the table. Never the answer for a command byte: the rows partition them (R49). -/
  | noRow (b : Byte)
  /-- Select codes 6 and 7 are not operations (R56, R131). -/
  | selectCode (op : BitVec 3)
  /-- The operation takes another number of groups (R131). -/
  | groupCount (op : BitVec 3) (n : Nat)
  deriving DecidableEq, Repr

/-- The channel rows of the table in its order, each by its mask and match (R81 to R99); low bits are the channel, or
the one bit that a two-valued row leaves open. -/
def decodeChannel (c : Byte) (sp : Span) : Except DecodeError Instr :=
  if c &&& 0xF0#8 = 0x80#8 then .ok (.unassigned8x (c.setWidth 4) sp)
  else if c &&& 0xF0#8 = 0x90#8 then .ok (.digitalUpdate (c.setWidth 4) sp)
  else if c &&& 0xF0#8 = 0xA0#8 then .ok (.unassignedAx (c.setWidth 4) sp)
  else if c &&& 0xF0#8 = 0xB0#8 then .ok (.unassignedBx (c.setWidth 4) sp)
  else if c &&& 0xF0#8 = 0xC0#8 then .ok (.analogStreamToggle (c.setWidth 4) sp)
  else if c &&& 0xF0#8 = 0xD0#8 then .ok (.digitalStreamToggle (c.setWidth 4) sp)
  else if c &&& 0xF0#8 = 0xE0#8 then .ok (.analogUpdate (c.setWidth 4) sp)
  else if c = 0xF1#8 then .ok (.unassignedF1 sp)
  else if c &&& 0xFE#8 = 0xF2#8 then .ok (.unassignedF2 (c.setWidth 1) sp)
  else if c = 0xF4#8 then .ok (.setPinMode sp)
  else if c = 0xF5#8 then .ok (.setDigitalPin sp)
  else if c = 0xF6#8 then .ok (.unassignedF6 sp)
  else if c = 0xF7#8 then .ok (.sysexEnd sp)
  else if c = 0xF8#8 then .ok (.unassignedF8 sp)
  else if c = 0xF9#8 then .ok (.protocolVersion sp)
  else if c &&& 0xFE#8 = 0xFA#8 then .ok (.unassignedFA (c.setWidth 1) sp)
  else if c &&& 0xFE#8 = 0xFC#8 then .ok (.unassignedFC (c.setWidth 1) sp)
  else if c = 0xFE#8 then .ok (.unassignedFE sp)
  else if c = 0xFF#8 then .ok (.systemReset sp)
  else .error (.noRow c)

/-- The subcommand rows (R51, R111 to R120): SX_OTHER applies when no other row does. -/
def decodeSub (sub : Group) (payload : List Group) : Instr :=
  if sub = 0x01#7 then .sxClearDisplay payload
  else if sub = 0x02#7 then .sxShowDisplay payload
  else if sub = 0x03#7 then .sxPlotPixel payload
  else if sub = 0x04#7 then .sxScrollString payload
  else if sub = 0x05#7 then .sxScrollInteger payload
  else if sub = 0x06#7 then .sxSetTouchMode payload
  else if sub = 0x0D#7 then .sxReportEvent payload
  else if sub = 0x0E#7 then .sxDebugString payload
  else if sub = 0x79#7 then .sxReportFirmware payload
  else .sxOther sub payload

/-- A 0xF0 with its span and what follows it (R102): the byte after the span decides. -/
def decodeSysex (span : List Group) : List Byte → Instr
  | [] => .sysexStart (.unfinished span)
  | e :: _ =>
    if e = 0xF7#8 then
      match span with
      | [] => .sysexStart .empty
      | sub :: payload => decodeSub sub payload
    else .sysexStart (.unterminated span)

/-- The instruction at the head of a stream: the command byte, its span, and whether a later command byte closes it
(R46, R65 to R70). -/
def decodeStream : List Byte → Except DecodeError Instr
  | [] => .error .noByte
  | c :: rest =>
    if isCommand c then
      if c = 0xF0#8 then .ok (decodeSysex (dataPrefix rest) (afterData rest))
      else decodeChannel c ⟨dataPrefix rest, !(afterData rest).isEmpty⟩
    else .error (.dataByte c)

/-- How many groups a select code's operation takes; PAIR takes any number (R122, R129). -/
def groupsOf (op : BitVec 3) : Nat :=
  if op = 0 then 2 else if op = 1 then 2 else if op = 2 then 3 else if op = 3 then 5 else if op = 4 then 5 else 0

/-- A call of the unpacker by select code (R56); each lane is presented bits 6:0 of its byte (R130). -/
def decodeCall (op : BitVec 3) (lanes : List Byte) : Except DecodeError Instr :=
  if op = 5 then .ok (.pair (lanes.map groupOf))
  else if op = 6 ∨ op = 7 then .error (.selectCode op)
  else match lanes.map groupOf with
    | [g0, g1] =>
      if op = 0 then .ok (.u14 g0 g1) else if op = 1 then .ok (.s14 g0 g1) else .error (.groupCount op 2)
    | [g0, g1, g2] => if op = 2 then .ok (.u21 g0 g1 g2) else .error (.groupCount op 3)
    | [g0, g1, g2, g3, g4] =>
      if op = 3 then .ok (.u32 g0 g1 g2 g3 g4)
      else if op = 4 then .ok (.s32 g0 g1 g2 g3 g4)
      else .error (.groupCount op 5)
    | gs => .error (.groupCount op gs.length)

/-- The decoder. -/
def decode : Code → Except DecodeError Instr
  | .stream bytes => decodeStream bytes
  | .call op lanes => decodeCall op lanes

/-! ## The encoder -/

/-- A channel message's own bytes: the command byte and its span (R43). -/
def channelBytes (c : Byte) (sp : Span) : List Byte := c :: sp.data.map byteOf

/-- A well-formed sysex: 0xF0, the subcommand, the payload, 0xF7 (R44). -/
def sysexBytes (sub : Group) (payload : List Group) : List Byte :=
  0xF0#8 :: byteOf sub :: (payload.map byteOf ++ [0xF7#8])

/-- The encoding of an instruction: its own bytes, or the select code and lanes of its call. -/
def encode : Instr → Code
  | .unassigned8x ch sp => .stream (channelBytes (0x8#4 ++ ch) sp)
  | .digitalUpdate ch sp => .stream (channelBytes (0x9#4 ++ ch) sp)
  | .unassignedAx ch sp => .stream (channelBytes (0xA#4 ++ ch) sp)
  | .unassignedBx ch sp => .stream (channelBytes (0xB#4 ++ ch) sp)
  | .analogStreamToggle ch sp => .stream (channelBytes (0xC#4 ++ ch) sp)
  | .digitalStreamToggle ch sp => .stream (channelBytes (0xD#4 ++ ch) sp)
  | .analogUpdate ch sp => .stream (channelBytes (0xE#4 ++ ch) sp)
  | .sysexStart (.unfinished d) => .stream (0xF0#8 :: d.map byteOf)
  | .sysexStart (.unterminated d) => .stream (0xF0#8 :: d.map byteOf)
  | .sysexStart .empty => .stream [0xF0#8, 0xF7#8]
  | .unassignedF1 sp => .stream (channelBytes 0xF1#8 sp)
  | .unassignedF2 low sp => .stream (channelBytes (0b1111001#7 ++ low) sp)
  | .setPinMode sp => .stream (channelBytes 0xF4#8 sp)
  | .setDigitalPin sp => .stream (channelBytes 0xF5#8 sp)
  | .unassignedF6 sp => .stream (channelBytes 0xF6#8 sp)
  | .sysexEnd sp => .stream (channelBytes 0xF7#8 sp)
  | .unassignedF8 sp => .stream (channelBytes 0xF8#8 sp)
  | .protocolVersion sp => .stream (channelBytes 0xF9#8 sp)
  | .unassignedFA low sp => .stream (channelBytes (0b1111101#7 ++ low) sp)
  | .unassignedFC low sp => .stream (channelBytes (0b1111110#7 ++ low) sp)
  | .unassignedFE sp => .stream (channelBytes 0xFE#8 sp)
  | .systemReset sp => .stream (channelBytes 0xFF#8 sp)
  | .sxClearDisplay p => .stream (sysexBytes 0x01#7 p)
  | .sxShowDisplay p => .stream (sysexBytes 0x02#7 p)
  | .sxPlotPixel p => .stream (sysexBytes 0x03#7 p)
  | .sxScrollString p => .stream (sysexBytes 0x04#7 p)
  | .sxScrollInteger p => .stream (sysexBytes 0x05#7 p)
  | .sxSetTouchMode p => .stream (sysexBytes 0x06#7 p)
  | .sxReportEvent p => .stream (sysexBytes 0x0D#7 p)
  | .sxDebugString p => .stream (sysexBytes 0x0E#7 p)
  | .sxReportFirmware p => .stream (sysexBytes 0x79#7 p)
  | .sxOther sub p => .stream (sysexBytes sub p)
  | .u14 g0 g1 => .call 0 ([g0, g1].map byteOf)
  | .s14 g0 g1 => .call 1 ([g0, g1].map byteOf)
  | .u21 g0 g1 g2 => .call 2 ([g0, g1, g2].map byteOf)
  | .u32 g0 g1 g2 g3 g4 => .call 3 ([g0, g1, g2, g3, g4].map byteOf)
  | .s32 g0 g1 g2 g3 g4 => .call 4 ([g0, g1, g2, g3, g4].map byteOf)
  | .pair gs => .call 5 (gs.map byteOf)

/-- A code with further bytes of the stream after it; a call of the unpacker has none. -/
def Code.andThen (rest : List Byte) : Code → Code
  | .stream bytes => .stream (bytes ++ rest)
  | .call op lanes => .call op lanes

/-- The stream ends here, or a command byte comes next. -/
def endsOrCloses (closed : Bool) : List Byte → Bool
  | [] => !closed
  | b :: _ => closed && isCommand b

/-- What may stand in the stream after an instruction's own bytes: after an open segment nothing, after a closed one the
command byte that closes it, after an unterminated sysex one that is not 0xF7, after a terminated sysex anything (R46,
R102). -/
def Instr.mayPrecede (rest : List Byte) : Instr → Bool
  | .unassigned8x _ sp | .digitalUpdate _ sp | .unassignedAx _ sp | .unassignedBx _ sp
  | .analogStreamToggle _ sp | .digitalStreamToggle _ sp | .analogUpdate _ sp
  | .unassignedF1 sp | .unassignedF2 _ sp | .setPinMode sp | .setDigitalPin sp | .unassignedF6 sp
  | .sysexEnd sp | .unassignedF8 sp | .protocolVersion sp | .unassignedFA _ sp | .unassignedFC _ sp
  | .unassignedFE sp | .systemReset sp => endsOrCloses sp.closed rest
  | .sysexStart (.unfinished _) => rest.isEmpty
  | .sysexStart (.unterminated _) => endsOrCloses true rest && decide (rest.head? ≠ some 0xF7#8)
  | .sysexStart .empty
  | .sxClearDisplay _ | .sxShowDisplay _ | .sxPlotPixel _ | .sxScrollString _ | .sxScrollInteger _
  | .sxSetTouchMode _ | .sxReportEvent _ | .sxDebugString _ | .sxReportFirmware _ | .sxOther _ _
  | .u14 _ _ | .s14 _ _ | .u21 _ _ _ | .u32 _ _ _ _ _ | .s32 _ _ _ _ _ | .pair _ => true

/-! ## The opcode table's words -/

/-- The code of a word of `spec/opcode_table.json` (log 11). A row of 3 bits is a select code, called with as many zero
groups as its operation takes; a row of 8 bits is a command byte, followed by two zero bytes as operands; a row of 16
bits is `(byte0 << 8) | byte1` (30_encoding.md), followed by the terminator 0xF7 that format SX fixes (R44). -/
def tableCode (nbits w : Nat) : Code :=
  if nbits ≤ 8 then
    if w < 8 then .call (BitVec.ofNat 3 w) (List.replicate (groupsOf (BitVec.ofNat 3 w)) 0)
    else .stream [BitVec.ofNat 8 w, 0, 0]
  else .stream [BitVec.ofNat 8 (w / 256), BitVec.ofNat 8 w, 0xF7#8]

/-- The instruction the decoder reads from a word of the table. -/
def decodeTableWord (nbits w : Nat) : Option Instr :=
  match decode (tableCode nbits w) with
  | .ok i => some i
  | .error _ => none

end Sys2Proof
end

