-- ==== Sys2Proof/Machine/State.lean ====
section
/-!
DEFINITION. The state of MBF-Framer (10_state.md), its reset value, and the reasons a step can stop.
-/

namespace Sys2Proof.Machine

/-! ## Messages -/

/-- `Class(c)` (R48): the six classes of the source and `other`. -/
inductive MsgClass where
  | digitalUpdate | analogUpdate | protocolVersion | streamToggle | pinMode | reset | other
  deriving DecidableEq, Repr

/-- A channel message as handed over (R53). -/
structure ChannelMessage where
  cmd : Byte
  cls : MsgClass
  chan : BitVec 4
  nargs : BitVec 2
  arg1 : Group
  arg2 : Group
  deriving DecidableEq, Repr

/-- A message as handed over: kind CH (R53) or kind SX (R54). The payload's length is that of the list. -/
inductive Message where
  | ch (m : ChannelMessage)
  | sx (sub : Group) (payload : List Group)
  deriving DecidableEq, Repr

/-- An EMIT event (R72) with the index of the transaction in which it happened (R183). -/
structure EmitEvent where
  txn : Nat
  msg : Message
  deriving DecidableEq, Repr

/-- What the unpacker returns: one integer, or for PAIR a sequence of integers (R122). -/
inductive UnpackResult where
  | int (v : Int)
  | codes (vs : List Nat)
  deriving DecidableEq, Repr

/-- What a read of the STATUS view gives (R17). -/
structure Status where
  count : Nat
  ovf : Bool
  skip : Bool
  deriving DecidableEq, Repr

/-! ## What the outside world asks for -/

/-- An interaction the host starts (R6, R184). -/
inductive Request where
  | reset
  | process (data : List Byte)
  | readStatus
  deriving DecidableEq, Repr

/-- A call of the unpacker (R184), by select code (R56). -/
structure UnpackCall where
  op : BitVec 3
  lanes : List Byte
  deriving DecidableEq, Repr

/-! ## Memory -/

/-- The InputBuffer's cells (R25): a list of (index, byte) pairs with strictly rising indices. A cell that is not listed
holds no architectural value (R13). -/
abbrev Memory := List Host.Cell

/-- The canonical form. -/
abbrev Memory.wf (m : Memory) : Prop := (m.map Prod.fst).Pairwise (· < ·)

/-! ## State -/

/-- The working latches of the loop (R14). -/
structure Latches where
  /-- `s`: the index of the command byte under examination. -/
  s : Nat
  /-- `t`: the index of the next command byte after `s`, or none. -/
  t : Option Nat
  /-- `a`: the number of data bytes between them, or to the end of the valid bytes. -/
  a : Nat
  /-- `c`: the command byte. -/
  c : Byte
  /-- `end`: the index one past the message. -/
  fin : Nat
  deriving DecidableEq, Repr

/-- The latches outside the loop, where they have no value (R14; log 3). -/
def Latches.idle : Latches := ⟨0, none, 0, 0, 0⟩

structure State where
  /-- The parameter `CAP` (R5). -/
  cap : Nat
  /-- `buf` (R13). -/
  mem : Memory
  /-- `count` (R11). -/
  count : Nat
  /-- `OVF` (R16). -/
  ovf : Bool
  /-- `SKIP` (R16). -/
  skip : Bool
  /-- A PROCESS is running (R24). -/
  busy : Bool
  /-- A RESET has been applied since power-up (R169). -/
  initialised : Bool
  /-- `cursor` (R12). -/
  cursor : Nat
  /-- The working latches (R14). -/
  lat : Latches
  /-- The number of RESET and PROCESS transactions accepted so far: the index that R183 observes. -/
  txn : Nat
  /-- What the host will ask for, in order, each after the one before has returned (R183). -/
  requests : List Request
  /-- The calls made of the unpacker, in order. -/
  calls : List UnpackCall
  /-- The output of the block: its EMIT events, in order (R72). -/
  emits : List EmitEvent
  /-- The unpacker's results, in order. -/
  results : List UnpackResult
  /-- What the host's reads of STATUS gave, in order. -/
  statusReads : List Status
  deriving DecidableEq, Repr

/-- The block of capacity `cap` right after RESET (R22), with nothing asked of it. -/
def State.resetOf (cap : Nat) : State where
  cap := cap
  mem := []
  count := 0
  ovf := false
  skip := false
  busy := false
  initialised := true
  cursor := 0
  lat := Latches.idle
  txn := 0
  requests := []
  calls := []
  emits := []
  results := []
  statusReads := []

/-- The machine right after RESET. -/
def State.reset : State := State.resetOf Config.cap

/-! ## Why a step stops -/

/-- Faults. The spec gives the block none (R150, R165). -/
inductive Fault where
  /-- Raised by a fetch when a cell below `count` holds no value. Safe: no state that meets the invariant of
  `Safety.lean` has such a cell, and the machine stops instead of choosing a byte. -/
  | unwrittenCell
  deriving DecidableEq, Repr

/-- Refusals. -/
inductive Refusal where
  /-- The instruction has no meaning in this model. Raised by no arm of `exec`. Safe. -/
  | notModelled (mnemonic : String)
  /-- Raised by the acceptance of a request while a PROCESS is running: re-entry is forbidden (R159). Safe: `step` takes
  a request only when the block is not busy, so it never answers this. -/
  | busy
  /-- Raised by the acceptance of a PROCESS before the first RESET (R169, U6). Safe. -/
  | beforeReset
  /-- Raised by a call of the unpacker that names no operation: select codes 6 and 7, or another number of groups
  (R131, U9). Safe. -/
  | unpackOperation (e : DecodeError)
  /-- Raised by the framer when the decoder rejects bytes that begin with a command byte. Safe: it never does (R49,
  R50). -/
  | undecodable (e : DecodeError)
  deriving DecidableEq, Repr

end Sys2Proof.Machine
end

