-- ==== Sys2Proof/Machine/Ops.lean ====
section
/-!
DEFINITION. The named operations over the buffer and the state (20_memory.md, 40_framer_loop.md). Every access to the
buffer goes through these. The block takes no exception (R150): there is no entry and no return to define; what ends a
transaction early is COMPACT and DISCARD.
-/

namespace Sys2Proof.Machine

/-! ## Memory -/

/-- The byte a cell holds, none when it holds no value. -/
def Memory.read : Memory → Nat → Option Byte
  | [], _ => none
  | (k, b) :: m, a => if k = a then some b else Memory.read m a

/-- Write one cell, keeping the indices rising. -/
def Memory.write : Memory → Nat → Byte → Memory
  | [], a, v => [(a, v)]
  | (k, b) :: m, a, v =>
    if a < k then (a, v) :: (k, b) :: m
    else if a = k then (a, v) :: m
    else (k, b) :: Memory.write m a v

/-- Write bytes at ascending indices from `a`. -/
def Memory.writeRun : Memory → Nat → List Byte → Memory
  | m, _, [] => m
  | m, a, b :: bs => Memory.writeRun (m.write a b) (a + 1) bs

/-- Read `n` bytes at ascending indices from `a`; none when one of the cells holds no value. -/
def Memory.readRun (m : Memory) (a : Nat) : Nat → Option (List Byte)
  | 0 => some []
  | n + 1 => do
    let b ← m.read a
    let bs ← Memory.readRun m (a + 1) n
    return b :: bs

/-- The cells of `[s, n)` moved down to index 0; every other cell is left without a value (R30, R13). -/
def Memory.moveDown (m : Memory) (s n : Nat) : Memory :=
  (m.filter fun c => decide (s ≤ c.1) && decide (c.1 < n)).map fun c => (c.1 - s, c.2)

/-- The memory whose cells from index `k` on hold `bs`, and no other cell holds a value. -/
def Memory.cellsFrom : Nat → List Byte → Memory
  | _, [] => []
  | k, b :: bs => (k, b) :: Memory.cellsFrom (k + 1) bs

/-- The memory whose valid bytes are `bs`. -/
def Memory.ofBytes (bs : List Byte) : Memory := Memory.cellsFrom 0 bs

/-! ## The stream in the buffer -/

/-- The valid bytes `buf[0..count-1]`, in order; none when a cell below `count` holds no value. -/
def State.bytes? (s : State) : Option (List Byte) := s.mem.readRun 0 s.count

/-- The valid bytes, for statements (empty where `bytes?` has none). -/
def State.valid (s : State) : List Byte := s.bytes?.getD []

/-- The index of the first command byte of a list. -/
def firstCmd : List Byte → Option Nat
  | [] => none
  | b :: bs => if isCommand b then some 0 else (firstCmd bs).map (· + 1)

/-- `FindCmd(i)` (R28) over the valid bytes `bs`: the least index `j >= i` that holds a command byte. -/
def findCmd (bs : List Byte) (i : Nat) : Option Nat := (firstCmd (bs.drop i)).map (· + i)

/-! ## APPEND, COMPACT, DISCARD -/

/-- How many of `L` bytes fit: `n = min(L, CAP - count)` (R26). -/
def State.room (s : State) (L : Nat) : Nat := min L (s.cap - s.count)

/-- APPEND (R26) without the flag, which `Flags.lean` adds. -/
def State.store (data : List Byte) (s : State) : State :=
  { s with mem := s.mem.writeRun s.count (data.take (s.room data.length))
           count := s.count + s.room data.length }

/-- COMPACT(i) (R30). -/
def State.compact (i : Nat) (s : State) : State :=
  { s with mem := s.mem.moveDown i s.count, count := s.count - i }

/-- DISCARD (R31): the cells become invalid, that is, hold no architectural value (R13). -/
def State.discard (s : State) : State := { s with mem := [], count := 0 }

/-! ## The loop -/

/-- The return of a PROCESS: the block is no longer busy, the transient state has no value (R12, R14; log 3). -/
def State.finish (s : State) : State :=
  { s with busy := false, cursor := 0, lat := Latches.idle }

/-- EMIT(m) (R72): the sink gets the message; no state of the block changes. -/
def State.emit (m : Message) (s : State) : State :=
  { s with emits := s.emits ++ [⟨s.txn, m⟩] }

/-- `cursor <- v` (R70, R71). -/
def State.advance (v : Nat) (s : State) : State := { s with cursor := v }

/-- The latches for the command byte at index `p` of the valid bytes `bs` (R65 to R67): `end` is `t`, or `count` when
no later command byte stands. -/
def latchesAt (bs : List Byte) (p : Nat) : Latches where
  s := p
  t := findCmd bs (p + 1)
  a := (findCmd bs (p + 1)).getD bs.length - (p + 1)
  c := bs.getD p 0
  fin := (findCmd bs (p + 1)).getD bs.length

/-- The state in which the message whose command byte is at index `p` is examined. -/
def State.latch (bs : List Byte) (p : Nat) (s : State) : State := { s with lat := latchesAt bs p }

/-- The unpacker's result handed to its caller (R122). -/
def State.deliver (r : UnpackResult) (s : State) : State := { s with results := s.results ++ [r] }

/-! ## The STATUS view -/

/-- `W = ceil(log2(CAP+1))` (R5). -/
def indexWidth (cap : Nat) : Nat := Nat.log2 cap + 1

/-- The fields of STATUS (R17). -/
def State.status (s : State) : Status := ⟨s.count, s.ovf, s.skip⟩

/-- STATUS as a word: COUNT in bits W-1:0, OVF in bit W, SKIP in bit W+1 (R17). -/
def State.statusWord (s : State) : BitVec (indexWidth s.cap + 2) :=
  BitVec.ofNat _ (s.count + s.ovf.toNat * 2 ^ indexWidth s.cap + s.skip.toNat * 2 ^ (indexWidth s.cap + 1))

end Sys2Proof.Machine
end

