-- ==== Sys2Proof/Machine/Flags.lean ====
section
/-!
DEFINITION. The two sticky flags (R16). The block has no condition codes.
-/

namespace Sys2Proof.Machine

/-- `OVF` after an APPEND of `L` bytes of which `n` were stored: set when a byte was dropped, else as it was (R16, R26). -/
def ovfAfter (ovf : Bool) (L n : Nat) : Bool := ovf || decide (n < L)

/-- `SKIP <- 1` (R16, R105). -/
def State.raiseSkip (s : State) : State := { s with skip := true }

/-- APPEND(data) (R26): the bytes that fit are stored, the rest dropped, and then `OVF` is set. -/
def State.append (data : List Byte) (s : State) : State :=
  { s.store data with ovf := ovfAfter s.ovf data.length (s.room data.length) }

end Sys2Proof.Machine
end

