-- ==== Sys2Proof/Machine/Operands.lean ====
section
/-!
DEFINITION. How operands are read: the required argument count, the class and the arguments of a channel message, and the
assembly of numbers from 7-bit groups.
-/

namespace Sys2Proof.Machine

/-! ## Channel messages -/

/-- `Need(c)` (R47), the tests in its order. The framer never asks it of 0xF0, for which it is not defined. -/
def need (c : Byte) : Nat :=
  if c = 0xFF#8 then 0
  else if c &&& 0xF0#8 = 0xC0#8 ∨ c &&& 0xF0#8 = 0xD0#8 then 1
  else 2

/-- `Class(c)` (R48), for the command bytes other than 0xF0. -/
def classOf (c : Byte) : MsgClass :=
  if c &&& 0xF0#8 = 0x90#8 then .digitalUpdate
  else if c &&& 0xF0#8 = 0xE0#8 then .analogUpdate
  else if c = 0xF9#8 then .protocolVersion
  else if c &&& 0xF0#8 = 0xC0#8 ∨ c &&& 0xF0#8 = 0xD0#8 then .streamToggle
  else if c = 0xF4#8 then .pinMode
  else if c = 0xFF#8 then .reset
  else .other

/-- `chan = c[3:0]` (R45). -/
def chanOf (c : Byte) : BitVec 4 := c.setWidth 4

/-- The `i`-th data byte of the span if it is one of the first `k`, else 0 (R53). -/
def argument (data : List Group) (k i : Nat) : Group := if i < k then data.getD i 0 else 0

/-- The message of a channel command byte and its span (R53): at most `Need(c)` argument values. -/
def channelMessage (c : Byte) (data : List Group) : ChannelMessage where
  cmd := c
  cls := classOf c
  chan := chanOf c
  nargs := BitVec.ofNat 2 (min data.length (need c))
  arg1 := argument data (min data.length (need c)) 0
  arg2 := argument data (min data.length (need c)) 1

/-- A channel segment is complete when it is closed, or holds at least `Need(c)` data bytes (R66, R67). -/
def completeSpan (c : Byte) (sp : Span) : Bool := sp.closed || decide (need c ≤ sp.data.length)

/-! ## The unpacker's formats -/

/-- `Unpack7` (R123): the groups, least significant first. -/
def unpack7 : List Group → Nat
  | [] => 0
  | g :: gs => g.toNat + 128 * unpack7 gs

/-- `g0 | (g1 << 7)`, 14 bits (R124). -/
def fieldP14 (g0 g1 : Group) : BitVec 14 := g0.setWidth 14 ||| g1.setWidth 14 <<< 7

/-- `g0 | (g1 << 7) | (g2 << 14)`, 21 bits (R126). -/
def fieldP21 (g0 g1 g2 : Group) : BitVec 21 :=
  g0.setWidth 21 ||| g1.setWidth 21 <<< 7 ||| g2.setWidth 21 <<< 14

/-- The 35 bits of `r`, of which bits 31:0 are kept (R127). -/
def fieldP32 (g0 g1 g2 g3 g4 : Group) : BitVec 32 :=
  (g0.setWidth 35 ||| g1.setWidth 35 <<< 7 ||| g2.setWidth 35 <<< 14 ||| g3.setWidth 35 <<< 21
    ||| g4.setWidth 35 <<< 28).setWidth 32

/-- The character codes of a byte sequence, one per pair; an unpaired last byte is dropped (R129). -/
def pairCodes : List Group → List Nat
  | lo :: hi :: rest => (fieldP14 lo hi).toNat :: pairCodes rest
  | _ => []

end Sys2Proof.Machine
end

