-- ==== Sys2Proof/Machine/Channel.lean ====
section
/-!
DEFINITION. The meanings of the channel messages (41_channel_commands.md): one mechanism, one definition per row.
-/

namespace Sys2Proof.Machine

/-- A channel message, generic (R80): a complete segment is emitted and the cursor moves to its end; an incomplete one is
compacted to index 0 and the transaction returns (R68). -/
def frameChannel (c : Byte) (sp : Span) (s : State) : Host.Outcome State Fault Refusal :=
  if completeSpan c sp then .next ((s.emit (.ch (channelMessage c sp.data))).advance s.lat.fin)
  else .next (s.compact s.lat.s).finish

/-- UNASSIGNED_8x (R81). -/
def execUnassigned8x (chan : BitVec 4) (sp : Span) (s : State) : Host.Outcome State Fault Refusal :=
  frameChannel (0x8#4 ++ chan) sp s

/-- DIGITAL_UPDATE (R82). -/
def execDigitalUpdate (chan : BitVec 4) (sp : Span) (s : State) : Host.Outcome State Fault Refusal :=
  frameChannel (0x9#4 ++ chan) sp s

/-- UNASSIGNED_Ax (R83). -/
def execUnassignedAx (chan : BitVec 4) (sp : Span) (s : State) : Host.Outcome State Fault Refusal :=
  frameChannel (0xA#4 ++ chan) sp s

/-- UNASSIGNED_Bx (R84). -/
def execUnassignedBx (chan : BitVec 4) (sp : Span) (s : State) : Host.Outcome State Fault Refusal :=
  frameChannel (0xB#4 ++ chan) sp s

/-- ANALOG_STREAM_TOGGLE (R85). -/
def execAnalogStreamToggle (chan : BitVec 4) (sp : Span) (s : State) : Host.Outcome State Fault Refusal :=
  frameChannel (0xC#4 ++ chan) sp s

/-- DIGITAL_STREAM_TOGGLE (R86). -/
def execDigitalStreamToggle (chan : BitVec 4) (sp : Span) (s : State) : Host.Outcome State Fault Refusal :=
  frameChannel (0xD#4 ++ chan) sp s

/-- ANALOG_UPDATE (R87). -/
def execAnalogUpdate (chan : BitVec 4) (sp : Span) (s : State) : Host.Outcome State Fault Refusal :=
  frameChannel (0xE#4 ++ chan) sp s

/-- UNASSIGNED_F1 (R88). -/
def execUnassignedF1 (sp : Span) (s : State) : Host.Outcome State Fault Refusal :=
  frameChannel 0xF1#8 sp s

/-- UNASSIGNED_F2, 0xF2 and 0xF3 (R89). -/
def execUnassignedF2 (low : BitVec 1) (sp : Span) (s : State) : Host.Outcome State Fault Refusal :=
  frameChannel (0b1111001#7 ++ low) sp s

/-- SET_PIN_MODE (R90). -/
def execSetPinMode (sp : Span) (s : State) : Host.Outcome State Fault Refusal :=
  frameChannel 0xF4#8 sp s

/-- SET_DIGITAL_PIN (R91). -/
def execSetDigitalPin (sp : Span) (s : State) : Host.Outcome State Fault Refusal :=
  frameChannel 0xF5#8 sp s

/-- UNASSIGNED_F6 (R92). -/
def execUnassignedF6 (sp : Span) (s : State) : Host.Outcome State Fault Refusal :=
  frameChannel 0xF6#8 sp s

/-- SYSEX_END standing alone (R93). -/
def execSysexEnd (sp : Span) (s : State) : Host.Outcome State Fault Refusal :=
  frameChannel 0xF7#8 sp s

/-- UNASSIGNED_F8 (R94). -/
def execUnassignedF8 (sp : Span) (s : State) : Host.Outcome State Fault Refusal :=
  frameChannel 0xF8#8 sp s

/-- PROTOCOL_VERSION (R95). -/
def execProtocolVersion (sp : Span) (s : State) : Host.Outcome State Fault Refusal :=
  frameChannel 0xF9#8 sp s

/-- UNASSIGNED_FA, 0xFA and 0xFB (R96). -/
def execUnassignedFA (low : BitVec 1) (sp : Span) (s : State) : Host.Outcome State Fault Refusal :=
  frameChannel (0b1111101#7 ++ low) sp s

/-- UNASSIGNED_FC, 0xFC and 0xFD (R97). -/
def execUnassignedFC (low : BitVec 1) (sp : Span) (s : State) : Host.Outcome State Fault Refusal :=
  frameChannel (0b1111110#7 ++ low) sp s

/-- UNASSIGNED_FE (R98). -/
def execUnassignedFE (sp : Span) (s : State) : Host.Outcome State Fault Refusal :=
  frameChannel 0xFE#8 sp s

/-- SYSTEM_RESET: a message like any other, it resets nothing here (R99, R167). -/
def execSystemReset (sp : Span) (s : State) : Host.Outcome State Fault Refusal :=
  frameChannel 0xFF#8 sp s

end Sys2Proof.Machine
end

