-- ==== Sys2Proof/Machine/Sysex.lean ====
section
/-!
DEFINITION. The meanings of the sysex messages (42_sysex.md). The framer does not look at the subcommand (R110): one
mechanism, one definition per row. Where the rules say `cursor <- t`, `end` is `t`: the segment is closed (R66).
-/

namespace Sys2Proof.Machine

/-- SYSEX_START (R102) where no message comes of it: incomplete, it is retained (R103); closed by another byte than 0xF7,
it is skipped and `SKIP` set (R105); empty, it is consumed with its terminator (R106). -/
def execSysexStart (form : SysexForm) (s : State) : Host.Outcome State Fault Refusal :=
  match form with
  | .unfinished _ => .next (s.compact s.lat.s).finish
  | .unterminated _ => .next (s.raiseSkip.advance s.lat.fin)
  | .empty => .next (s.advance (s.lat.fin + 1))

/-- A well-formed sysex (R104): it is emitted and the cursor moves past its 0xF7. -/
def frameSysex (sub : Group) (payload : List Group) (s : State) : Host.Outcome State Fault Refusal :=
  .next ((s.emit (.sx sub payload)).advance (s.lat.fin + 1))

/-- SX_CLEAR_DISPLAY (R111). -/
def execSxClearDisplay (payload : List Group) (s : State) : Host.Outcome State Fault Refusal :=
  frameSysex 0x01#7 payload s

/-- SX_SHOW_DISPLAY (R112). -/
def execSxShowDisplay (payload : List Group) (s : State) : Host.Outcome State Fault Refusal :=
  frameSysex 0x02#7 payload s

/-- SX_PLOT_PIXEL (R113). -/
def execSxPlotPixel (payload : List Group) (s : State) : Host.Outcome State Fault Refusal :=
  frameSysex 0x03#7 payload s

/-- SX_SCROLL_STRING (R114). -/
def execSxScrollString (payload : List Group) (s : State) : Host.Outcome State Fault Refusal :=
  frameSysex 0x04#7 payload s

/-- SX_SCROLL_INTEGER (R115). -/
def execSxScrollInteger (payload : List Group) (s : State) : Host.Outcome State Fault Refusal :=
  frameSysex 0x05#7 payload s

/-- SX_SET_TOUCH_MODE (R116). -/
def execSxSetTouchMode (payload : List Group) (s : State) : Host.Outcome State Fault Refusal :=
  frameSysex 0x06#7 payload s

/-- SX_REPORT_EVENT (R117). -/
def execSxReportEvent (payload : List Group) (s : State) : Host.Outcome State Fault Refusal :=
  frameSysex 0x0D#7 payload s

/-- SX_DEBUG_STRING (R118). -/
def execSxDebugString (payload : List Group) (s : State) : Host.Outcome State Fault Refusal :=
  frameSysex 0x0E#7 payload s

/-- SX_REPORT_FIRMWARE (R119). -/
def execSxReportFirmware (payload : List Group) (s : State) : Host.Outcome State Fault Refusal :=
  frameSysex 0x79#7 payload s

/-- SX_OTHER (R120). -/
def execSxOther (sub : Group) (payload : List Group) (s : State) : Host.Outcome State Fault Refusal :=
  frameSysex sub payload s

end Sys2Proof.Machine
end

