-- ==== Sys2Proof/Machine/Unpack.lean ====
section
/-!
DEFINITION. The meanings of the unpacker's operations (43_unpacker.md). They read nothing but their operands and write
nothing but their result (R122).
-/

namespace Sys2Proof.Machine

/-- U14 (R124). -/
def execU14 (g0 g1 : Group) (s : State) : Host.Outcome State Fault Refusal :=
  .next (s.deliver (.int (fieldP14 g0 g1).toNat))

/-- S14 (R125): the 14-bit pattern read as two's complement. -/
def execS14 (g0 g1 : Group) (s : State) : Host.Outcome State Fault Refusal :=
  .next (s.deliver (.int (fieldP14 g0 g1).toInt))

/-- U21 (R126). -/
def execU21 (g0 g1 g2 : Group) (s : State) : Host.Outcome State Fault Refusal :=
  .next (s.deliver (.int (fieldP21 g0 g1 g2).toNat))

/-- U32 (R127). -/
def execU32 (g0 g1 g2 g3 g4 : Group) (s : State) : Host.Outcome State Fault Refusal :=
  .next (s.deliver (.int (fieldP32 g0 g1 g2 g3 g4).toNat))

/-- S32 (R128): the 32-bit pattern read as two's complement. -/
def execS32 (g0 g1 g2 g3 g4 : Group) (s : State) : Host.Outcome State Fault Refusal :=
  .next (s.deliver (.int (fieldP32 g0 g1 g2 g3 g4).toInt))

/-- PAIR (R129). -/
def execPair (gs : List Group) (s : State) : Host.Outcome State Fault Refusal :=
  .next (s.deliver (.codes (pairCodes gs)))

end Sys2Proof.Machine
end

