-- ==== Sys2Proof/Machine/Dispatch.lean ====
section
/-!
DEFINITION. One arm per instruction.
-/

namespace Sys2Proof.Machine

def exec (i : Instr) (s : State) : Host.Outcome State Fault Refusal :=
  match i with
  | .unassigned8x chan sp => Sys2Proof.Machine.execUnassigned8x chan sp s
  | .digitalUpdate chan sp => Sys2Proof.Machine.execDigitalUpdate chan sp s
  | .unassignedAx chan sp => Sys2Proof.Machine.execUnassignedAx chan sp s
  | .unassignedBx chan sp => Sys2Proof.Machine.execUnassignedBx chan sp s
  | .analogStreamToggle chan sp => Sys2Proof.Machine.execAnalogStreamToggle chan sp s
  | .digitalStreamToggle chan sp => Sys2Proof.Machine.execDigitalStreamToggle chan sp s
  | .analogUpdate chan sp => Sys2Proof.Machine.execAnalogUpdate chan sp s
  | .sysexStart form => Sys2Proof.Machine.execSysexStart form s
  | .unassignedF1 sp => Sys2Proof.Machine.execUnassignedF1 sp s
  | .unassignedF2 low sp => Sys2Proof.Machine.execUnassignedF2 low sp s
  | .setPinMode sp => Sys2Proof.Machine.execSetPinMode sp s
  | .setDigitalPin sp => Sys2Proof.Machine.execSetDigitalPin sp s
  | .unassignedF6 sp => Sys2Proof.Machine.execUnassignedF6 sp s
  | .sysexEnd sp => Sys2Proof.Machine.execSysexEnd sp s
  | .unassignedF8 sp => Sys2Proof.Machine.execUnassignedF8 sp s
  | .protocolVersion sp => Sys2Proof.Machine.execProtocolVersion sp s
  | .unassignedFA low sp => Sys2Proof.Machine.execUnassignedFA low sp s
  | .unassignedFC low sp => Sys2Proof.Machine.execUnassignedFC low sp s
  | .unassignedFE sp => Sys2Proof.Machine.execUnassignedFE sp s
  | .systemReset sp => Sys2Proof.Machine.execSystemReset sp s
  | .sxClearDisplay payload => Sys2Proof.Machine.execSxClearDisplay payload s
  | .sxShowDisplay payload => Sys2Proof.Machine.execSxShowDisplay payload s
  | .sxPlotPixel payload => Sys2Proof.Machine.execSxPlotPixel payload s
  | .sxScrollString payload => Sys2Proof.Machine.execSxScrollString payload s
  | .sxScrollInteger payload => Sys2Proof.Machine.execSxScrollInteger payload s
  | .sxSetTouchMode payload => Sys2Proof.Machine.execSxSetTouchMode payload s
  | .sxReportEvent payload => Sys2Proof.Machine.execSxReportEvent payload s
  | .sxDebugString payload => Sys2Proof.Machine.execSxDebugString payload s
  | .sxReportFirmware payload => Sys2Proof.Machine.execSxReportFirmware payload s
  | .sxOther sub payload => Sys2Proof.Machine.execSxOther sub payload s
  | .u14 g0 g1 => Sys2Proof.Machine.execU14 g0 g1 s
  | .s14 g0 g1 => Sys2Proof.Machine.execS14 g0 g1 s
  | .u21 g0 g1 g2 => Sys2Proof.Machine.execU21 g0 g1 g2 s
  | .u32 g0 g1 g2 g3 g4 => Sys2Proof.Machine.execU32 g0 g1 g2 g3 g4 s
  | .s32 g0 g1 g2 g3 g4 => Sys2Proof.Machine.execS32 g0 g1 g2 g3 g4 s
  | .pair gs => Sys2Proof.Machine.execPair gs s

end Sys2Proof.Machine
end

