-- ==== Sys2Proof/Machine/Transaction.lean ====
section
/-!
DEFINITION. The transactions the host starts (R6, R184): RESET, PROCESS(data) and a read of STATUS.
-/

namespace Sys2Proof.Machine

/-- RESET (R166, R22): every persistent state element at its reset value; nothing is emitted. What has been observed of
the run so far (`emits`, `results`, `statusReads`) and what the host will ask for are not state of the block. -/
def State.applyReset (s : State) : State :=
  { s with mem := [], count := 0, ovf := false, skip := false, busy := false, initialised := true
           cursor := 0, lat := Latches.idle, txn := s.txn + 1 }

/-- The start of PROCESS(data) (R60 to R63): an empty `data` is a no-op; else the append, `cursor <- 0`, and the loop
runs from the next step on. -/
def State.startProcess (data : List Byte) (s : State) : State :=
  if data = [] then { s with txn := s.txn + 1 }
  else { s.append data with cursor := 0, busy := true, txn := s.txn + 1 }

/-- A read of STATUS (R17, R184): no side effect on the block. -/
def State.answerStatus (s : State) : State := { s with statusReads := s.statusReads ++ [s.status] }

/-- The acceptance of a request: none while a PROCESS is running (R159), no PROCESS before the first RESET (R169). -/
def accept (r : Request) (s : State) : Host.Outcome State Fault Refusal :=
  if s.busy then .refused .busy
  else match r with
    | .reset => .next s.applyReset
    | .process data => if s.initialised then .next (s.startProcess data) else .refused .beforeReset
    | .readStatus => .next s.answerStatus

end Sys2Proof.Machine
end

