-- ==== Sys2Proof/Machine/Fetch.lean ====
section
/-!
DEFINITION. What the next step is to do: the fetch of an instruction from the buffer or from the unpacker's calls, and
the placing of an instruction where the fetch finds it.
-/

namespace Sys2Proof.Machine

/-- What a fetch finds. -/
inductive Fetched where
  /-- An instruction, and the state it runs in. -/
  | run (i : Instr) (s : State)
  /-- No instruction: the step is done and leaves this state. -/
  | settled (s : State)
  /-- The block is idle and takes this request. -/
  | ask (r : Request) (s : State)
  | faulty (f : Fault)
  | rejected (r : Refusal)
  deriving Repr

/-- One pass of the loop over the valid bytes `bs` (R64, R65): no command byte at or after the cursor, so DISCARD and
return; else the segment at the one that is found. -/
def fetchSegment (bs : List Byte) (s : State) : Fetched :=
  match findCmd bs s.cursor with
  | none => .settled s.discard.finish
  | some p =>
    match decode (.stream (bs.drop p)) with
    | .ok i => .run i (s.latch bs p)
    | .error e => .rejected (.undecodable e)

/-- The first call made of the unpacker. -/
def fetchCall (c : UnpackCall) (s : State) : Fetched :=
  match decode (.call c.op c.lanes) with
  | .ok i => .run i s
  | .error e => .rejected (.unpackOperation e)

/-- What the next step is to do. Calls of the unpacker are served first, at any time (R184); a busy block makes a pass of
its loop; an idle one takes the host's next request, or waits. -/
def State.fetch (s : State) : Fetched :=
  match s.calls with
  | c :: cs => fetchCall c { s with calls := cs }
  | [] =>
    if s.busy then
      match s.bytes? with
      | none => .faulty .unwrittenCell
      | some bs => fetchSegment bs s
    else
      match s.requests with
      | [] => .settled s
      | r :: rs => .ask r { s with requests := rs }

/-- `s` with a code placed where the next step fetches it (log 10): a call as the only one made of the unpacker, a stream
as the valid bytes of a running PROCESS with its cursor at 0. -/
def State.place (code : Code) (s : State) : State :=
  match code with
  | .call op lanes => { s with calls := [⟨op, lanes⟩] }
  | .stream bytes =>
    { s with calls := [], mem := Memory.ofBytes bytes, count := bytes.length, busy := true, cursor := 0 }

end Sys2Proof.Machine
end

