-- ==== Sys2Proof/Machine/Step.lean ====
section
/-!
DEFINITION. One step of the machine.
-/

namespace Sys2Proof.Machine

/-- One step: a call of the unpacker, one pass of the loop of R78, the acceptance of one request, or waiting. -/
def step (s : State) : Host.Outcome State Fault Refusal :=
  match s.fetch with
  | .run i s' => exec i s'
  | .settled s' => .next s'
  | .ask r s' => accept r s'
  | .faulty f => .fault f
  | .rejected r => .refused r

/-- `s` with the instruction of a table word where the next step fetches it (log 10). -/
def State.withFetchWord (s : State) (nbits w : Nat) : State := s.place (tableCode nbits w)

end Sys2Proof.Machine
end

