-- ==== Sys2Proof/Machine/Consumer.lean ====
section
/-!
DEFINITION. The reference consumer of the block's messages (44_consumer_contract.md). It is outside the block (R4, R136):
no field of `State` belongs to it and `step` does not use it. `System.lean` puts it behind the block as one sink.
-/

namespace Sys2Proof.Machine

/-- An element of a version string: a character code as PAIR yields it, whose character set the spec does not give
(R129), or a character of the string's template. -/
inductive Glyph where
  | code (c : Nat)
  | char (c : Char)
  deriving DecidableEq, Repr

/-- A call of a listener, by the name it was registered under. -/
inductive ListenerCall where
  | event (listener : Nat) (sourceID eventID : Nat)
  | update (listener : Nat)
  deriving DecidableEq, Repr

/-- DeviceState and ListenerRegistry (R147), the calls made of the listeners so far, and the debug strings shown so far
(R143). -/
structure Consumer where
  digitalInput : Vector Bool 21
  analogChannel : Vector Int 16
  firmataVersion : List Glyph
  firmwareVersion : List Glyph
  eventListeners : List Nat
  updateListeners : List Nat
  calls : List ListenerCall
  shown : List (List Glyph)
  deriving DecidableEq, Repr

/-- The consumer at the start: both strings empty (R147). What its pins and channels hold then is not stated (N9) and is an
argument (log 14). DESIGN CHOICE (log 20): both listener sequences start empty, as do the calls made and the strings shown
so far; the spec gives none of them a start value. -/
def Consumer.start (pins : Vector Bool 21) (channels : Vector Int 16) : Consumer where
  digitalInput := pins
  analogChannel := channels
  firmataVersion := []
  firmwareVersion := []
  eventListeners := []
  updateListeners := []
  calls := []
  shown := []

/-- The registration of an event listener: at the end, whether it is there already or not (R147). -/
def Consumer.registerEvent (l : Nat) (k : Consumer) : Consumer :=
  { k with eventListeners := k.eventListeners ++ [l] }

/-- The registration of an update listener (R147). -/
def Consumer.registerUpdate (l : Nat) (k : Consumer) : Consumer :=
  { k with updateListeners := k.updateListeners ++ [l] }

/-- The characters of a string's template. -/
def glyphs (cs : List Char) : List Glyph := cs.map .char

/-- `decimal(n)` (R140). -/
def decimal (n : Nat) : List Glyph := glyphs (Nat.toDigits 10 n)

/-- Pins `8*port + bit` for the bits of the combined value, those below 21 (R138). -/
def setPins (port : Nat) (v : BitVec 14) : List Nat → Vector Bool 21 → Vector Bool 21
  | [], pins => pins
  | b :: bits, pins => setPins port v bits (pins.setIfInBounds (8 * port + b) (v.getLsbD b))

/-- Digital-port update (R138). -/
def Consumer.digital (m : ChannelMessage) (k : Consumer) : Consumer :=
  { k with digitalInput := setPins m.chan.toNat (fieldP14 m.arg1 m.arg2) (List.range 8) k.digitalInput }

/-- Analog-channel update (R139). -/
def Consumer.analog (m : ChannelMessage) (k : Consumer) : Consumer :=
  { k with analogChannel := k.analogChannel.setIfInBounds m.chan.toNat (fieldP14 m.arg1 m.arg2).toInt
           calls := k.calls ++ k.updateListeners.map .update }

/-- Protocol version (R140). -/
def Consumer.protocol (m : ChannelMessage) (k : Consumer) : Consumer :=
  { k with firmataVersion :=
      glyphs ['F', 'i', 'r', 'm', 'a', 't', 'a', ' ', 'P', 'r', 'o', 't', 'o', 'c', 'o', 'l', ' ']
        ++ decimal m.arg1.toNat ++ glyphs ['.'] ++ decimal m.arg2.toNat }

/-- The group a payload holds at an index; a free value where it does not reach (log 13). -/
def payloadAt (p : List Group) (i : Nat) : Group := p.getD i (Config.absentPayloadGroup p i)

/-- The `i`-th of the two identifiers of a report event: three groups from index `3*i` on (R142). -/
def identifier (p : List Group) (i : Nat) : Nat :=
  (fieldP21 (payloadAt p (3 * i)) (payloadAt p (3 * i + 1)) (payloadAt p (3 * i + 2))).toNat

/-- Report event (R142): every event listener is called, in registration order. -/
def Consumer.event (p : List Group) (k : Consumer) : Consumer :=
  { k with calls := k.calls ++ k.eventListeners.map (.event · (identifier p 0) (identifier p 1)) }

/-- Debug string (R143): shown as packed text, which is read as PAIR (log 19). -/
def Consumer.debug (p : List Group) (k : Consumer) : Consumer :=
  { k with shown := k.shown ++ [(pairCodes p).map .code] }

/-- Report firmware (R144). -/
def Consumer.firmware (p : List Group) (k : Consumer) : Consumer :=
  { k with firmwareVersion :=
      (pairCodes (p.drop 2)).map .code ++ glyphs [' '] ++ decimal (payloadAt p 0).toNat
        ++ glyphs ['.'] ++ decimal (payloadAt p 1).toNat }

/-- What the reference consumer does with one message (R137, R141); everything else is ignored (R145). -/
def Consumer.receive (k : Consumer) : Message → Consumer
  | .ch m =>
    if m.cmd &&& 0xF0#8 = 0x90#8 then k.digital m
    else if m.cmd &&& 0xF0#8 = 0xE0#8 then k.analog m
    else if m.cmd = 0xF9#8 then k.protocol m
    else k
  | .sx sub payload =>
    if sub = 0x0D#7 then k.event payload
    else if sub = 0x0E#7 then k.debug payload
    else if sub = 0x79#7 then k.firmware payload
    else k

/-- The consumer after the messages of a run, in order (R146). -/
def Consumer.receiveAll (k : Consumer) (ms : List Message) : Consumer := ms.foldl Consumer.receive k

end Sys2Proof.Machine
end

