-- ==== Sys2Proof/Machine/Pack.lean ====
section
/-!
DEFINITION. The pack side of the numeric formats (R132). It is not part of the block; round-trip statements use it.
-/

namespace Sys2Proof.Machine

/-- `v[7i+6 : 7i]`. -/
def groupAt (v i : Nat) : Group := BitVec.ofNat 7 (v / 2 ^ (7 * i))

/-- `Pack14` of a signed `x` through `v = x & 0x3FFF`. -/
def pack14 (x : Int) : Group × Group :=
  (groupAt (BitVec.ofInt 14 x).toNat 0, groupAt (BitVec.ofInt 14 x).toNat 1)

/-- `Pack21`. -/
def pack21 (v : Nat) : Group × Group × Group := (groupAt v 0, groupAt v 1, groupAt v 2)

/-- `g4` of `Pack32`: `u[31:28]`, and in the sign-carrying spelling `0x70` with it for a negative `n`. -/
def pack32Top (signs : Bool) (n : Int) : Group :=
  groupAt (BitVec.ofInt 32 n).toNat 4 ||| (if signs && decide (n < 0) then 0x70 else 0)

/-- `g0 .. g3` of `Pack32`. -/
def pack32Low (n : Int) (i : Nat) : Group := groupAt (BitVec.ofInt 32 n).toNat i

end Sys2Proof.Machine
end

