-- ==== Sys2Proof/Machine/Segment.lean ====
section
/-!
DEFINITION. The segment view of R74: what one PROCESS makes of its valid bytes, as a function of those bytes alone. The
step function does not use it; statements hold it against the machine.
-/

namespace Sys2Proof.Machine

/-- A command byte with its data bytes. -/
structure Segment where
  cmd : Byte
  data : List Group
  deriving DecidableEq, Repr

/-- The leading data bytes of a stream, and its segments in order. -/
def splitStream : List Byte → List Group × List Segment
  | [] => ([], [])
  | b :: bs =>
    match splitStream bs with
    | (lead, segs) => if isCommand b then ([], ⟨b, lead⟩ :: segs) else (groupOf b :: lead, segs)

/-- The bytes of a segment. -/
def Segment.bytes (g : Segment) : List Byte := g.cmd :: g.data.map byteOf

/-- What a PROCESS makes of its valid bytes. -/
structure View where
  /-- The messages it emits, in order. -/
  msgs : List Message
  /-- The valid bytes it leaves. -/
  rest : List Byte
  /-- It skips a sysex for want of its terminator. -/
  skip : Bool
  deriving DecidableEq, Repr

/-- The message of a well-formed sysex, none for an empty span (R54, R106). -/
def sysexMessages : List Group → List Message
  | [] => []
  | sub :: payload => [.sx sub payload]

/-- The segments left to right, cases (a) to (f) of R74; the last one is the open one. -/
def viewSegments : List Segment → View
  | [] => ⟨[], [], false⟩
  | [g] =>
    if g.cmd = 0xF0#8 then ⟨[], g.bytes, false⟩
    else if need g.cmd ≤ g.data.length then ⟨[.ch (channelMessage g.cmd g.data)], [], false⟩
    else ⟨[], g.bytes, false⟩
  | g :: h :: gs =>
    if g.cmd = 0xF0#8 then
      if h.cmd = 0xF7#8 then
        { viewSegments gs with msgs := sysexMessages g.data ++ (viewSegments gs).msgs }
      else { viewSegments (h :: gs) with skip := true }
    else
      { viewSegments (h :: gs) with
        msgs := .ch (channelMessage g.cmd g.data) :: (viewSegments (h :: gs)).msgs }

/-- The segment view of a stream: the leading data bytes belong to no message (R79). -/
def segmentView (bs : List Byte) : View := viewSegments (splitStream bs).2

end Sys2Proof.Machine
end

