-- ==== Sys2Proof/Machine/System.lean ====
section
/-!
DEFINITION. The block with a sink behind it. The sink is the parameter `SINK` of the step (R5): any state `κ` and any way
`take` of taking one message. That `take` is a total function of the sink's state and the message alone is R158's law of
the sink: it returns, it starts no transaction on the block, it neither reads nor writes `buf`, and it cannot refuse.
-/

namespace Sys2Proof.Machine

structure System (κ : Type) where
  block : State
  sink : κ
  deriving DecidableEq, Repr

/-- The messages that a step from `s` to `t` emitted, in order. -/
def emittedBy (s t : State) : List Message := (t.emits.drop s.emits.length).map EmitEvent.msg

/-- One step of the block, which is that of `Step.lean` whatever the sink is. All that the sink does on a message happens in
the step that emits it, before the framer goes on (R72, R37; log 8). -/
def System.step {κ : Type} (take : κ → Message → κ) (y : System κ) : Host.Outcome (System κ) Fault Refusal :=
  match Sys2Proof.Machine.step y.block with
  | .next t => .next ⟨t, (emittedBy y.block t).foldl take y.sink⟩
  | .fault f => .fault f
  | .refused r => .refused r

/-- The block and a sink as a machine, from the block's reset and a start of the sink of one's choice. -/
def System.core {κ : Type} (take : κ → Message → κ) (start : κ) : Host.Core :=
  { State := System κ, Fault := Fault, Refusal := Refusal, step := System.step take, reset := ⟨State.reset, start⟩ }

/-- The step with the reference consumer as the sink: all effects of a message, the calls of the listeners included, happen
inside its EMIT (R146). -/
def referenceStep (y : System Consumer) : Host.Outcome (System Consumer) Fault Refusal := y.step Consumer.receive

end Sys2Proof.Machine
end

