-- ==== Sys2Proof/Safety.lean ====
section
/-!
DEFINITION. What counts as a sound state of the block, in the terms statements use.
-/

namespace Sys2Proof.Machine

/-- INV-HEAD (R19): the valid bytes are empty, or exactly one open segment that is incomplete. -/
def headIncomplete : List Byte → Bool
  | [] => true
  | c :: rest =>
    isCommand c && rest.all (fun b => !isCommand b) && (decide (c = 0xF0#8) || decide (rest.length < need c))

/-- The invariant of the block after a RESET: `CAP >= 3` (R5); `count <= CAP` (R11, R18); the cells that hold a value are
exactly those below `count` (R13); inside a PROCESS the cursor is at most `count` (R12); outside one INV-HEAD holds (R19). -/
structure State.Inv (s : State) : Prop where
  capacity : 3 ≤ s.cap
  bounded : s.count ≤ s.cap
  cells : s.mem.map Prod.fst = List.range s.count
  live : s.initialised = true
  scanning : s.busy = true → s.cursor ≤ s.count
  head : s.busy = false → headIncomplete s.valid = true

/-- No PROCESS is running, and nothing more is asked of the machine. -/
def State.quiet (s : State) : Bool := !s.busy && s.calls.isEmpty && s.requests.isEmpty

/-- The wedge (R172): the buffer is full with a 0xF0 at index 0 and `CAP - 1` data bytes, and the scan, if one runs, is at
its start. -/
def State.wedged (s : State) : Bool :=
  decide (s.count = s.cap) && (!s.busy || decide (s.cursor = 0)) &&
  match s.bytes? with
  | some (c :: rest) => decide (c = 0xF0#8) && rest.all (fun b => !isCommand b)
  | _ => false

/-- A channel row's command byte and span. -/
def channelOf : Instr → Option (Byte × Span)
  | .unassigned8x ch sp => some (0x8#4 ++ ch, sp)
  | .digitalUpdate ch sp => some (0x9#4 ++ ch, sp)
  | .unassignedAx ch sp => some (0xA#4 ++ ch, sp)
  | .unassignedBx ch sp => some (0xB#4 ++ ch, sp)
  | .analogStreamToggle ch sp => some (0xC#4 ++ ch, sp)
  | .digitalStreamToggle ch sp => some (0xD#4 ++ ch, sp)
  | .analogUpdate ch sp => some (0xE#4 ++ ch, sp)
  | .unassignedF1 sp => some (0xF1#8, sp)
  | .unassignedF2 low sp => some (0b1111001#7 ++ low, sp)
  | .setPinMode sp => some (0xF4#8, sp)
  | .setDigitalPin sp => some (0xF5#8, sp)
  | .unassignedF6 sp => some (0xF6#8, sp)
  | .sysexEnd sp => some (0xF7#8, sp)
  | .unassignedF8 sp => some (0xF8#8, sp)
  | .protocolVersion sp => some (0xF9#8, sp)
  | .unassignedFA low sp => some (0b1111101#7 ++ low, sp)
  | .unassignedFC low sp => some (0b1111110#7 ++ low, sp)
  | .unassignedFE sp => some (0xFE#8, sp)
  | .systemReset sp => some (0xFF#8, sp)
  | .sysexStart _ | .sxClearDisplay _ | .sxShowDisplay _ | .sxPlotPixel _ | .sxScrollString _ | .sxScrollInteger _
  | .sxSetTouchMode _ | .sxReportEvent _ | .sxDebugString _ | .sxReportFirmware _ | .sxOther _ _
  | .u14 _ _ | .s14 _ _ | .u21 _ _ _ | .u32 _ _ _ _ _ | .s32 _ _ _ _ _ | .pair _ => none

/-- The operations of the unpacker. -/
def isUnpack : Instr → Bool
  | .u14 _ _ | .s14 _ _ | .u21 _ _ _ | .u32 _ _ _ _ _ | .s32 _ _ _ _ _ | .pair _ => true
  | _ => false

/-- The condition INCOMPLETE (R153): an open sysex, or an open channel segment with fewer than `Need(c)` data bytes. -/
def isIncomplete (i : Instr) : Bool :=
  match channelOf i with
  | some (c, sp) => !sp.closed && decide (sp.data.length < need c)
  | none => match i with
    | .sysexStart (.unfinished _) => true
    | _ => false

end Sys2Proof.Machine
end

