-- ==== Sys2Proof/Certificates/Slice0/Obligations.lean ====
section
/-!
DEFINITION. The statements for the provers. Where a next state is written in full, every field that the record update
does not name is unchanged: that is the statement's frame.
-/

namespace Sys2Proof.Machine

/-- R80 for one row: command byte `c`, `Need = n`, `Class = cls`. A segment that is closed, or holds `n` data bytes, is
emitted with its first `min a n` data bytes as arguments and the cursor moves to `end`; an open one with fewer is moved
to index 0 and the PROCESS returns. (The model's choices: the cells from the new count on hold no value, log 2; the
cursor and the latches at the return, log 3.) -/
def ChannelRow (mk : Span → Instr) (c : Byte) (n : Nat) (cls : MsgClass) : Prop :=
  (∀ (sp : Span) (s : State), sp.closed = true ∨ n ≤ sp.data.length →
    exec (mk sp) s = .next { s with
      emits := s.emits ++ [⟨s.txn, .ch {
        cmd := c
        cls := cls
        chan := c.setWidth 4
        nargs := BitVec.ofNat 2 (min sp.data.length n)
        arg1 := if 1 ≤ min sp.data.length n then sp.data.getD 0 0 else 0
        arg2 := if 2 ≤ min sp.data.length n then sp.data.getD 1 0 else 0 }⟩]
      cursor := s.lat.fin }) ∧
  (∀ (sp : Span) (s : State), sp.closed = false → sp.data.length < n →
    exec (mk sp) s = .next { s with
      mem := s.mem.moveDown s.lat.s s.count
      count := s.count - s.lat.s
      busy := false
      cursor := 0
      lat := Latches.idle })

/-- R104 and R110 for one row: the message is emitted whatever the subcommand, and the cursor moves past the 0xF7, which
stands at `end`. -/
def SysexRow (mk : List Group → Instr) (sub : Group) : Prop :=
  ∀ (payload : List Group) (s : State),
    exec (mk payload) s = .next { s with
      emits := s.emits ++ [⟨s.txn, .sx sub payload⟩]
      cursor := s.lat.fin + 1 }

end Sys2Proof.Machine

open Sys2Proof Sys2Proof.Machine

/-! ## Encoding -/

/-- A few words, written out from the spec's tables. -/
def Obligations.WrittenOutWordsDecode : Prop :=
  decodeStream [0b10010000, 0b00000101, 0b00000000] = .ok (.digitalUpdate 0 ⟨[5, 0], false⟩) ∧
  decodeStream [0b11000011, 0b00000001, 0b11111111] = .ok (.analogStreamToggle 3 ⟨[1], true⟩) ∧
  decodeStream [0b11110011, 0b00000001, 0b00000010] = .ok (.unassignedF2 1 ⟨[1, 2], false⟩) ∧
  decodeStream [0b11110000, 0b00001110, 0b01000001, 0b11110111] = .ok (.sxDebugString [0x41#7]) ∧
  decodeStream [0b11110000, 0b01010101, 0b11110111] = .ok (.sxOther 0x55#7 []) ∧
  decodeStream [0b11110000, 0b11110111] = .ok (.sysexStart .empty) ∧
  decodeStream [0b01111111] = .error (.dataByte 0x7F#8) ∧
  decodeCall 0b010 [0b00000001, 0b00000000, 0b00000000] = .ok (.u21 1 0 0) ∧
  decodeCall 0b110 [0, 0] = .error (.selectCode 6)

/-- R49, the channel rows: each command byte other than 0xF0 falls in the row of its range, with the low bits the range
leaves open, and its span is the data bytes up to the next command byte. -/
def Obligations.CommandBytesFallInTheirRows : Prop :=
  ∀ (c : Byte) (rest : List Byte) (sp : Span), sp = ⟨dataPrefix rest, !(afterData rest).isEmpty⟩ →
    (0x80 ≤ c.toNat ∧ c.toNat ≤ 0x8F → decodeStream (c :: rest) = .ok (.unassigned8x (c.setWidth 4) sp)) ∧
    (0x90 ≤ c.toNat ∧ c.toNat ≤ 0x9F → decodeStream (c :: rest) = .ok (.digitalUpdate (c.setWidth 4) sp)) ∧
    (0xA0 ≤ c.toNat ∧ c.toNat ≤ 0xAF → decodeStream (c :: rest) = .ok (.unassignedAx (c.setWidth 4) sp)) ∧
    (0xB0 ≤ c.toNat ∧ c.toNat ≤ 0xBF → decodeStream (c :: rest) = .ok (.unassignedBx (c.setWidth 4) sp)) ∧
    (0xC0 ≤ c.toNat ∧ c.toNat ≤ 0xCF → decodeStream (c :: rest) = .ok (.analogStreamToggle (c.setWidth 4) sp)) ∧
    (0xD0 ≤ c.toNat ∧ c.toNat ≤ 0xDF → decodeStream (c :: rest) = .ok (.digitalStreamToggle (c.setWidth 4) sp)) ∧
    (0xE0 ≤ c.toNat ∧ c.toNat ≤ 0xEF → decodeStream (c :: rest) = .ok (.analogUpdate (c.setWidth 4) sp)) ∧
    (c = 0xF1#8 → decodeStream (c :: rest) = .ok (.unassignedF1 sp)) ∧
    (c = 0xF2#8 ∨ c = 0xF3#8 → decodeStream (c :: rest) = .ok (.unassignedF2 (c.setWidth 1) sp)) ∧
    (c = 0xF4#8 → decodeStream (c :: rest) = .ok (.setPinMode sp)) ∧
    (c = 0xF5#8 → decodeStream (c :: rest) = .ok (.setDigitalPin sp)) ∧
    (c = 0xF6#8 → decodeStream (c :: rest) = .ok (.unassignedF6 sp)) ∧
    (c = 0xF7#8 → decodeStream (c :: rest) = .ok (.sysexEnd sp)) ∧
    (c = 0xF8#8 → decodeStream (c :: rest) = .ok (.unassignedF8 sp)) ∧
    (c = 0xF9#8 → decodeStream (c :: rest) = .ok (.protocolVersion sp)) ∧
    (c = 0xFA#8 ∨ c = 0xFB#8 → decodeStream (c :: rest) = .ok (.unassignedFA (c.setWidth 1) sp)) ∧
    (c = 0xFC#8 ∨ c = 0xFD#8 → decodeStream (c :: rest) = .ok (.unassignedFC (c.setWidth 1) sp)) ∧
    (c = 0xFE#8 → decodeStream (c :: rest) = .ok (.unassignedFE sp)) ∧
    (c = 0xFF#8 → decodeStream (c :: rest) = .ok (.systemReset sp))

/-- R51 and the cases of R102: what a 0xF0 with its span `d` and what follows it decodes to. R102 and R110 read alone let
both the row SYSEX_START and the row of the subcommand apply to a well-formed sysex; that it is the subcommand's row, and
every other 0xF0 SYSEX_START, is the model's reading (log 6). -/
def Obligations.SysexFormsFallInTheirRows : Prop :=
  (∀ d : List Group, decodeStream (0xF0#8 :: d.map byteOf) = .ok (.sysexStart (.unfinished d))) ∧
  (∀ (d : List Group) (e : Byte) (rest : List Byte), e.getLsbD 7 = true → e ≠ 0xF7#8 →
    decodeStream (0xF0#8 :: (d.map byteOf ++ e :: rest)) = .ok (.sysexStart (.unterminated d))) ∧
  (∀ rest : List Byte, decodeStream (0xF0#8 :: 0xF7#8 :: rest) = .ok (.sysexStart .empty)) ∧
  (∀ (sub : Group) (p : List Group) (rest : List Byte) (i : Instr),
    decodeStream (0xF0#8 :: byteOf sub :: (p.map byteOf ++ 0xF7#8 :: rest)) = .ok i →
    (sub = 0x01#7 → i = .sxClearDisplay p) ∧ (sub = 0x02#7 → i = .sxShowDisplay p) ∧
    (sub = 0x03#7 → i = .sxPlotPixel p) ∧ (sub = 0x04#7 → i = .sxScrollString p) ∧
    (sub = 0x05#7 → i = .sxScrollInteger p) ∧ (sub = 0x06#7 → i = .sxSetTouchMode p) ∧
    (sub = 0x0D#7 → i = .sxReportEvent p) ∧ (sub = 0x0E#7 → i = .sxDebugString p) ∧
    (sub = 0x79#7 → i = .sxReportFirmware p) ∧
    (sub ∉ [0x01#7, 0x02#7, 0x03#7, 0x04#7, 0x05#7, 0x06#7, 0x0D#7, 0x0E#7, 0x79#7] → i = .sxOther sub p)) ∧
  (∀ (sub : Group) (p : List Group) (rest : List Byte),
    ∃ i, decodeStream (0xF0#8 :: byteOf sub :: (p.map byteOf ++ 0xF7#8 :: rest)) = .ok i)

/-- R56, R122, R130, R131: a call by select code, with bits 6:0 of each byte it is fed, and what is no operation. -/
def Obligations.UnpackerCallsDecodeBySelectCode : Prop :=
  (∀ b0 b1 : Byte, decodeCall 0 [b0, b1] = .ok (.u14 (b0.setWidth 7) (b1.setWidth 7))) ∧
  (∀ b0 b1 : Byte, decodeCall 1 [b0, b1] = .ok (.s14 (b0.setWidth 7) (b1.setWidth 7))) ∧
  (∀ b0 b1 b2 : Byte, decodeCall 2 [b0, b1, b2] = .ok (.u21 (b0.setWidth 7) (b1.setWidth 7) (b2.setWidth 7))) ∧
  (∀ b0 b1 b2 b3 b4 : Byte, decodeCall 3 [b0, b1, b2, b3, b4] =
    .ok (.u32 (b0.setWidth 7) (b1.setWidth 7) (b2.setWidth 7) (b3.setWidth 7) (b4.setWidth 7))) ∧
  (∀ b0 b1 b2 b3 b4 : Byte, decodeCall 4 [b0, b1, b2, b3, b4] =
    .ok (.s32 (b0.setWidth 7) (b1.setWidth 7) (b2.setWidth 7) (b3.setWidth 7) (b4.setWidth 7))) ∧
  (∀ bs : List Byte, decodeCall 5 bs = .ok (.pair (bs.map (·.setWidth 7)))) ∧
  (∀ (op : BitVec 3) (bs : List Byte), op = 6 ∨ op = 7 → decodeCall op bs = .error (.selectCode op)) ∧
  (∀ (op : BitVec 3) (bs : List Byte),
    ((op = 0 ∨ op = 1) ∧ bs.length ≠ 2) ∨ (op = 2 ∧ bs.length ≠ 3) ∨ ((op = 3 ∨ op = 4) ∧ bs.length ≠ 5) →
    decodeCall op bs = .error (.groupCount op bs.length))

/-- Decoding the encoding of a well-formed instruction, followed by anything that may follow it, gives it back, with every
operand at every value. -/
def Obligations.DecodingAnEncodingGivesItBack : Prop :=
  ∀ (i : Instr) (rest : List Byte), i.wf = true → i.mayPrecede rest = true →
    decode ((encode i).andThen rest) = .ok i

/-- The other direction: what the framer reads at the head of a stream is well formed, and its encoding is the bytes it was
read from, up to what may follow it. No byte of the stream is dropped or altered by decoding. -/
def Obligations.DecodedInstructionReencodesToItsBytes : Prop :=
  ∀ (bytes : List Byte) (i : Instr), decodeStream bytes = .ok i →
    i.wf = true ∧ ∃ rest, i.mayPrecede rest = true ∧ (encode i).andThen rest = .stream bytes

/-- `Need(c)`, by ranges (R47). -/
def Obligations.RequiredArgumentCounts : Prop :=
  ∀ c : Byte, 0x80 ≤ c.toNat → c ≠ 0xF0#8 →
    (c = 0xFF#8 → need c = 0) ∧
    (0xC0 ≤ c.toNat ∧ c.toNat ≤ 0xDF → need c = 1) ∧
    (c ≠ 0xFF#8 ∧ ¬(0xC0 ≤ c.toNat ∧ c.toNat ≤ 0xDF) → need c = 2)

/-- `Class(c)`, by ranges (R48). -/
def Obligations.MessageClasses : Prop :=
  ∀ c : Byte, 0x80 ≤ c.toNat → c ≠ 0xF0#8 →
    (0x90 ≤ c.toNat ∧ c.toNat ≤ 0x9F → classOf c = .digitalUpdate) ∧
    (0xE0 ≤ c.toNat ∧ c.toNat ≤ 0xEF → classOf c = .analogUpdate) ∧
    (c = 0xF9#8 → classOf c = .protocolVersion) ∧
    (0xC0 ≤ c.toNat ∧ c.toNat ≤ 0xDF → classOf c = .streamToggle) ∧
    (c = 0xF4#8 → classOf c = .pinMode) ∧
    (c = 0xFF#8 → classOf c = .reset) ∧
    ((0x80 ≤ c.toNat ∧ c.toNat ≤ 0x8F) ∨ (0xA0 ≤ c.toNat ∧ c.toNat ≤ 0xBF) ∨ (0xF1 ≤ c.toNat ∧ c.toNat ≤ 0xF3) ∨
      (0xF5 ≤ c.toNat ∧ c.toNat ≤ 0xF8) ∨ (0xFA ≤ c.toNat ∧ c.toNat ≤ 0xFE) → classOf c = .other)

/-! ## The step -/

/-- A step of a running PROCESS is `exec` of the instruction that stands at the first command byte at or after the cursor,
in the state whose latches hold that message's `s`, `t`, `a`, `c` and `end` (R65 to R67; one pass is one step: log 4). -/
def Obligations.BusyStepRunsTheDecodedInstruction : Prop :=
  ∀ (s : State) (bs : List Byte) (p : Nat) (i : Instr),
    s.calls = [] → s.busy = true → s.bytes? = some bs → findCmd bs s.cursor = some p →
    decodeStream (bs.drop p) = .ok i →
    step s = exec i { s with lat := {
      s := p
      t := findCmd bs (p + 1)
      a := (match findCmd bs (p + 1) with | some t => t | none => bs.length) - (p + 1)
      c := bs.getD p 0
      fin := match findCmd bs (p + 1) with | some t => t | none => bs.length } }

/-- A call of the unpacker is served by the next step, at any time, and the call is taken off the list (R184; that it comes
before the framer's own work is the model's choice, log 7). -/
def Obligations.UnpackerCallIsServedAtAnyTime : Prop :=
  ∀ (s : State) (c : UnpackCall) (cs : List UnpackCall) (i : Instr),
    s.calls = c :: cs → decode (.call c.op c.lanes) = .ok i → step s = exec i { s with calls := cs }

/-- Select codes 6 and 7 and other group counts are refused, by a name of their own (R131). -/
def Obligations.UndefinedUnpackerCallsAreRefused : Prop :=
  ∀ (s : State) (c : UnpackCall) (cs : List UnpackCall), s.calls = c :: cs →
    (c.op = 6 ∨ c.op = 7 → step s = .refused (.unpackOperation (.selectCode c.op))) ∧
    (((c.op = 0 ∨ c.op = 1) ∧ c.lanes.length ≠ 2) ∨ (c.op = 2 ∧ c.lanes.length ≠ 3) ∨
        ((c.op = 3 ∨ c.op = 4) ∧ c.lanes.length ≠ 5) →
      step s = .refused (.unpackOperation (.groupCount c.op c.lanes.length)))

/-- Step 1 of the loop when no command byte stands at or after the cursor (R64): the buffer is emptied, the PROCESS
returns, nothing is emitted and no flag changes. -/
def Obligations.ScanWithoutCommandByteEmptiesTheBuffer : Prop :=
  ∀ (s : State) (bs : List Byte), s.calls = [] → s.busy = true → s.bytes? = some bs →
    (∀ (j : Nat) (b : Byte), s.cursor ≤ j → bs[j]? = some b → b.getLsbD 7 = false) →
    ∃ t, step s = .next t ∧ t.count = 0 ∧ t.busy = false ∧ t.emits = s.emits ∧ t.ovf = s.ovf ∧ t.skip = s.skip ∧
      t.results = s.results ∧ t.requests = s.requests

/-- FindCmd(i) is the least index from `i` on that holds a byte with bit 7 set, or none when there is none (R28). -/
def Obligations.FindCmdIsTheLeastCommandByte : Prop :=
  ∀ (bs : List Byte) (i : Nat), i ≤ bs.length →
    (∀ j, findCmd bs i = some j ↔
      i ≤ j ∧ (∃ b, bs[j]? = some b ∧ b.getLsbD 7 = true) ∧
        ∀ (k : Nat) (b : Byte), i ≤ k → k < j → bs[k]? = some b → b.getLsbD 7 = false) ∧
    (findCmd bs i = none ↔ ∀ (k : Nat) (b : Byte), i ≤ k → bs[k]? = some b → b.getLsbD 7 = false)

/-! ## Every row completes -/

/-- DIGITAL_UPDATE and ANALOG_UPDATE (R82, R87). -/
def Obligations.UpdateMessagesAreFramed : Prop :=
  ∀ ch : BitVec 4,
    ChannelRow (.digitalUpdate ch) (0x90#8 + ch.setWidth 8) 2 .digitalUpdate ∧
    ChannelRow (.analogUpdate ch) (0xE0#8 + ch.setWidth 8) 2 .analogUpdate

/-- ANALOG_STREAM_TOGGLE and DIGITAL_STREAM_TOGGLE (R85, R86): one argument is enough, and `arg2` is always 0. -/
def Obligations.StreamTogglesAreFramed : Prop :=
  ∀ ch : BitVec 4,
    ChannelRow (.analogStreamToggle ch) (0xC0#8 + ch.setWidth 8) 1 .streamToggle ∧
    ChannelRow (.digitalStreamToggle ch) (0xD0#8 + ch.setWidth 8) 1 .streamToggle

/-- SET_PIN_MODE, SET_DIGITAL_PIN, PROTOCOL_VERSION (R90, R91, R95). -/
def Obligations.PinAndVersionMessagesAreFramed : Prop :=
  ChannelRow .setPinMode 0xF4#8 2 .pinMode ∧
  ChannelRow .setDigitalPin 0xF5#8 2 .other ∧
  ChannelRow .protocolVersion 0xF9#8 2 .protocolVersion

/-- UNASSIGNED_8x, UNASSIGNED_Ax, UNASSIGNED_Bx (R81, R83, R84). -/
def Obligations.UnassignedNibblesAreFramed : Prop :=
  ∀ ch : BitVec 4,
    ChannelRow (.unassigned8x ch) (0x80#8 + ch.setWidth 8) 2 .other ∧
    ChannelRow (.unassignedAx ch) (0xA0#8 + ch.setWidth 8) 2 .other ∧
    ChannelRow (.unassignedBx ch) (0xB0#8 + ch.setWidth 8) 2 .other

/-- UNASSIGNED_F1, F2, F6, F8, FA, FC, FE (R88, R89, R92, R94, R96, R97, R98). -/
def Obligations.UnassignedSystemBytesAreFramed : Prop :=
  ChannelRow .unassignedF1 0xF1#8 2 .other ∧
  (∀ low : BitVec 1, ChannelRow (.unassignedF2 low) (0xF2#8 + low.setWidth 8) 2 .other) ∧
  ChannelRow .unassignedF6 0xF6#8 2 .other ∧
  ChannelRow .unassignedF8 0xF8#8 2 .other ∧
  (∀ low : BitVec 1, ChannelRow (.unassignedFA low) (0xFA#8 + low.setWidth 8) 2 .other) ∧
  (∀ low : BitVec 1, ChannelRow (.unassignedFC low) (0xFC#8 + low.setWidth 8) 2 .other) ∧
  ChannelRow .unassignedFE 0xFE#8 2 .other

/-- SYSEX_END standing alone is a command byte like any other, with `Need = 2` (R93). -/
def Obligations.StraySysexEndIsFramed : Prop :=
  ChannelRow .sysexEnd 0xF7#8 2 .other

/-- SYSTEM_RESET is complete at once, open or closed; it is a message and resets nothing: count, buffer and both flags stay
as they are (R99, R167). -/
def Obligations.SystemResetIsOnlyAMessage : Prop :=
  ∀ (sp : Span) (s : State), exec (.systemReset sp) s = .next { s with
    emits := s.emits ++ [⟨s.txn, .ch
      { cmd := 0xFF#8, cls := .reset, chan := 0xF, nargs := 0, arg1 := 0, arg2 := 0 }⟩]
    cursor := s.lat.fin }

/-- SYSEX_START in the three forms that yield no message: unfinished, it is moved to index 0 and the PROCESS returns
(R103); closed by another byte than 0xF7, `SKIP` is set and the cursor moves to `t` (R105); empty, the cursor moves to
`t + 1` and no flag changes (R106). `t` is `end` in the latches. (The model's choices at the return: logs 2 and 3.) -/
def Obligations.SysexStartForms : Prop :=
  (∀ (d : List Group) (s : State), exec (.sysexStart (.unfinished d)) s = .next { s with
    mem := s.mem.moveDown s.lat.s s.count, count := s.count - s.lat.s, busy := false, cursor := 0
    lat := Latches.idle }) ∧
  (∀ (d : List Group) (s : State), exec (.sysexStart (.unterminated d)) s = .next { s with
    skip := true, cursor := s.lat.fin }) ∧
  (∀ s : State, exec (.sysexStart .empty) s = .next { s with cursor := s.lat.fin + 1 })

/-- The ten subcommand rows are framed alike (R110 to R120). -/
def Obligations.SysexSubcommandsAreFramedAlike : Prop :=
  SysexRow .sxClearDisplay 0x01#7 ∧ SysexRow .sxShowDisplay 0x02#7 ∧ SysexRow .sxPlotPixel 0x03#7 ∧
  SysexRow .sxScrollString 0x04#7 ∧ SysexRow .sxScrollInteger 0x05#7 ∧ SysexRow .sxSetTouchMode 0x06#7 ∧
  SysexRow .sxReportEvent 0x0D#7 ∧ SysexRow .sxDebugString 0x0E#7 ∧ SysexRow .sxReportFirmware 0x79#7 ∧
  ∀ sub : Group, SysexRow (.sxOther sub) sub

/-- U14 and U21: the unsigned numbers of two and of three groups, by select codes 0 and 2 (R124, R126). -/
def Obligations.UnsignedFieldsUnpack : Prop :=
  ∀ (g0 g1 g2 : Group) (s : State),
    exec (.u14 g0 g1) s = .next { s with results := s.results ++ [.int (g0.toNat + 2 ^ 7 * g1.toNat)] } ∧
    exec (.u21 g0 g1 g2) s = .next { s with
      results := s.results ++ [.int (g0.toNat + 2 ^ 7 * g1.toNat + 2 ^ 14 * g2.toNat)] } ∧
    encode (.u14 g0 g1) = .call 0 [byteOf g0, byteOf g1] ∧
    encode (.u21 g0 g1 g2) = .call 2 [byteOf g0, byteOf g1, byteOf g2]

/-- S14, select code 1: the value above 8191 is reinterpreted as negative (R125). -/
def Obligations.SignedFourteenBitUnpacks : Prop :=
  ∀ (g0 g1 : Group) (v : Int) (s : State), v = g0.toNat + 2 ^ 7 * g1.toNat →
    exec (.s14 g0 g1) s = .next { s with
      results := s.results ++ [.int (if v > 8191 then v - 16384 else v)] } ∧
    encode (.s14 g0 g1) = .call 1 [byteOf g0, byteOf g1]

/-- U32 and S32, select codes 3 and 4: bits 31:0 of the five groups; bits 6:4 of the fifth do not count; S32 reads them as two's complement
(R127, R128). -/
def Obligations.ThirtyTwoBitUnpacks : Prop :=
  ∀ (g0 g1 g2 g3 g4 : Group) (u : Int) (s : State),
    u = ((g0.toNat + 2 ^ 7 * g1.toNat + 2 ^ 14 * g2.toNat + 2 ^ 21 * g3.toNat + 2 ^ 28 * g4.toNat : Nat) : Int)
      % 2 ^ 32 →
    exec (.u32 g0 g1 g2 g3 g4) s = .next { s with results := s.results ++ [.int u] } ∧
    exec (.s32 g0 g1 g2 g3 g4) s = .next { s with
      results := s.results ++ [.int (if u ≥ 2 ^ 31 then u - 2 ^ 32 else u)] } ∧
    encode (.u32 g0 g1 g2 g3 g4) = .call 3 [byteOf g0, byteOf g1, byteOf g2, byteOf g3, byteOf g4] ∧
    encode (.s32 g0 g1 g2 g3 g4) = .call 4 [byteOf g0, byteOf g1, byteOf g2, byteOf g3, byteOf g4]

/-- PAIR, select code 5: one code per pair of bytes, in order; an unpaired last byte is dropped (R129). -/
def Obligations.PairsUnpackToCodes : Prop :=
  ∀ (gs : List Group) (s : State), ∃ codes : List Nat,
    exec (.pair gs) s = .next { s with results := s.results ++ [.codes codes] } ∧
    encode (.pair gs) = .call 5 (gs.map byteOf) ∧
    codes.length = gs.length / 2 ∧
    ∀ j, j < gs.length / 2 → codes.getD j 0 = (gs.getD (2 * j) 0).toNat + 2 ^ 7 * (gs.getD (2 * j + 1) 0).toNat

/-- `Unpack7`, the common law: the sum of the groups by powers of 128 fits in `7k` bits, group 0 first; or and sum agree;
the 14-bit and 21-bit fields that the operations assemble with shifts and ors are that sum (R123, R124, R126), and the
32-bit field is that sum modulo 2^32 (R127). -/
def Obligations.FieldsAreSumsOfGroups : Prop :=
  (∀ gs : List Group, unpack7 gs < 2 ^ (7 * gs.length)) ∧
  (∀ (gs : List Group) (g : Group), unpack7 (gs ++ [g]) = unpack7 gs + g.toNat * 2 ^ (7 * gs.length) ∧
    unpack7 (gs ++ [g]) = unpack7 gs ||| g.toNat <<< (7 * gs.length)) ∧
  (∀ g0 g1 : Group, (fieldP14 g0 g1).toNat = unpack7 [g0, g1]) ∧
  (∀ g0 g1 g2 : Group, (fieldP21 g0 g1 g2).toNat = unpack7 [g0, g1, g2]) ∧
  (∀ g0 g1 g2 g3 g4 : Group, (fieldP32 g0 g1 g2 g3 g4).toNat = unpack7 [g0, g1, g2, g3, g4] % 2 ^ 32)

/-- The round-trip laws, with both spellings of the fifth group (R133). -/
def Obligations.UnpackingAPackedNumberGivesItBack : Prop :=
  (∀ x : Int, -8192 ≤ x → x ≤ 8191 → (fieldP14 (pack14 x).1 (pack14 x).2).toInt = x) ∧
  (∀ v : Nat, v ≤ 16383 → (fieldP14 (pack14 v).1 (pack14 v).2).toNat = v) ∧
  (∀ v : Nat, v < 2 ^ 21 → (fieldP21 (pack21 v).1 (pack21 v).2.1 (pack21 v).2.2).toNat = v) ∧
  (∀ (n : Int) (signs : Bool), -2 ^ 31 ≤ n → n ≤ 2 ^ 31 - 1 →
    (fieldP32 (pack32Low n 0) (pack32Low n 1) (pack32Low n 2) (pack32Low n 3) (pack32Top signs n)).toInt = n)

/-! ## Frames -/

/-- What every instruction leaves unchanged. Nothing but `mem`, `count`, `busy`, `cursor`, the latches, `SKIP`, `emits` and
`results` changes; `SKIP` only in a sysex without terminator; an operation of the unpacker changes nothing but `results`,
and no message changes `results`; `emits` gains at most one event, of this transaction, and none by SYSEX_START; outside
the condition INCOMPLETE the count, the busy bit, the latches and every byte of the buffer stay. (That SYSEX_START emits
nothing is the model's reading: R102 gives 0xF0 a case that emits, the well-formed sysex of R104, and the model gives that
case to the subcommand rows: log 6.) -/
def Obligations.InstructionFrame : Prop :=
  ∀ (i : Instr) (s t : State), exec i s = .next t →
    t.cap = s.cap ∧ t.ovf = s.ovf ∧ t.initialised = s.initialised ∧ t.txn = s.txn ∧ t.requests = s.requests ∧
    t.calls = s.calls ∧ t.statusReads = s.statusReads ∧
    ((∀ d, i ≠ .sysexStart (.unterminated d)) → t.skip = s.skip) ∧
    (isUnpack i = true → { t with results := s.results } = s) ∧
    (isUnpack i = false → t.results = s.results) ∧
    (t.emits = s.emits ∨ ∃ m, t.emits = s.emits ++ [⟨s.txn, m⟩]) ∧
    ((∃ f, i = .sysexStart f) → t.emits = s.emits) ∧
    (isIncomplete i = false → t.count = s.count ∧ t.busy = s.busy ∧ t.lat = s.lat ∧
      ∀ a, t.mem.read a = s.mem.read a)

/-- What an instruction in the condition INCOMPLETE does to the buffer (R68, R30): nothing is emitted, no flag changes, and
the byte at each index below the new count is the one that stood `s` indices higher, where `s` is the latch the meaning
hands to COMPACT; the PROCESS has returned. -/
def Obligations.IncompleteInstructionIsRetained : Prop :=
  ∀ (i : Instr) (s : State), isIncomplete i = true →
    ∃ t, exec i s = .next t ∧ t.emits = s.emits ∧ t.ovf = s.ovf ∧ t.skip = s.skip ∧ t.results = s.results ∧
      t.busy = false ∧ t.count = s.count - s.lat.s ∧
      ∀ a, a < s.count - s.lat.s → t.mem.read a = s.mem.read (s.lat.s + a)

/-! ## Transactions -/

/-- The start of a PROCESS with at least one byte: APPEND stores the first `n = min(L, CAP - count)` bytes at the tail and
drops the rest, setting `OVF` exactly then; the cursor starts at 0; every other byte of the buffer stays (R26, R62,
R63). -/
def Obligations.ProcessAppendsWhatFits : Prop :=
  ∀ (s : State) (data : List Byte) (n : Nat), s.busy = false → s.initialised = true → data ≠ [] →
    n = min data.length (s.cap - s.count) →
    ∃ t, accept (.process data) s = .next t ∧ t.busy = true ∧ t.cursor = 0 ∧ t.count = s.count + n ∧
      (∀ a, t.mem.read a = if s.count ≤ a ∧ a < s.count + n then data[a - s.count]? else s.mem.read a) ∧
      t.ovf = (s.ovf || decide (n < data.length)) ∧ t.skip = s.skip ∧ t.emits = s.emits ∧ t.cap = s.cap ∧
      t.requests = s.requests ∧ t.calls = s.calls ∧ t.results = s.results

/-- An empty PROCESS changes no state of the block and emits nothing (R61). Nothing is said of the model's own count of
transactions. -/
def Obligations.EmptyProcessIsANoOp : Prop :=
  ∀ s : State, s.busy = false → s.initialised = true → ∃ n, accept (.process []) s = .next { s with txn := n }

/-- COMPACT(i) moves the bytes from `i` on down to index 0 in their order, and the count with them; COMPACT(0) on a buffer
whose valid cells are those below the count changes nothing (R30). -/
def Obligations.CompactShiftsTheUnconsumedRegion : Prop :=
  ∀ (s : State) (i : Nat), i < s.count →
    (s.compact i).count = s.count - i ∧
    (∀ a, a < s.count - i → (s.compact i).mem.read a = s.mem.read (i + a)) ∧
    (s.mem.map Prod.fst = List.range s.count → s.compact 0 = s) ∧
    (s.compact i).emits = s.emits ∧ (s.compact i).ovf = s.ovf ∧ (s.compact i).skip = s.skip

/-- The RESET transaction, from any state that is not inside a PROCESS: the buffer is empty, both flags are 0, nothing is
emitted (R166, R22). The model's choices: that no cell holds a value is its form of "none is valid" (log 2); `initialised`
is its bit for R169 (log 9); the observations of the run (R183), `results` and `statusReads` among them, and what the host
still asks for are no state of the block and stay (logs 12 and 18). -/
def Obligations.ResetTransactionEmptiesTheBlock : Prop :=
  ∀ (s : State) (rs : List Request), s.calls = [] → s.busy = false → s.requests = .reset :: rs →
    ∃ t, step s = .next t ∧ t.count = 0 ∧ t.ovf = false ∧ t.skip = false ∧ t.busy = false ∧ t.initialised = true ∧
      t.emits = s.emits ∧ t.results = s.results ∧ t.statusReads = s.statusReads ∧ t.cap = s.cap ∧ t.requests = rs ∧
      ∀ a, t.mem.read a = none

/-- The state right after reset: `count = 0`, `OVF = 0`, `SKIP = 0`, no cell valid, not busy (R22). (The capacity of
`State.reset` is the model's choice: log 1.) -/
def Obligations.ResetStateIsEmpty : Prop :=
  ∀ cap : Nat, (State.resetOf cap).count = 0 ∧ (State.resetOf cap).ovf = false ∧ (State.resetOf cap).skip = false ∧
    (State.resetOf cap).valid = [] ∧ (State.resetOf cap).busy = false ∧ (State.resetOf cap).cap = cap ∧
    State.reset = State.resetOf Config.cap

/-- No request is accepted while a PROCESS is running (R159). -/
def Obligations.BusyBlockAcceptsNothing : Prop :=
  ∀ (s : State) (r : Request), s.busy = true → accept r s = .refused .busy

/-- A PROCESS before the first RESET is refused, and a RESET is accepted (R169; log 9). -/
def Obligations.ProcessBeforeTheFirstResetIsRefused : Prop :=
  ∀ (s : State) (data : List Byte) (rs : List Request), s.calls = [] → s.busy = false → s.initialised = false →
    (s.requests = .process data :: rs → step s = .refused .beforeReset) ∧
    (s.requests = .reset :: rs → ∃ t, step s = .next t ∧ t.initialised = true)

/-- The STATUS view: COUNT in bits W-1:0, OVF in bit W, SKIP in bit W+1, with `W` the width that holds 0..CAP; a read of it
has no side effect on the block (R17, R5, R184). -/
def Obligations.StatusViewShowsCountAndFlags : Prop :=
  (∀ s : State, s.count ≤ s.cap →
    s.statusWord.toNat % 2 ^ indexWidth s.cap = s.count ∧
    s.statusWord.getLsbD (indexWidth s.cap) = s.ovf ∧
    s.statusWord.getLsbD (indexWidth s.cap + 1) = s.skip) ∧
  (∀ cap : Nat, 1 ≤ cap → cap < 2 ^ indexWidth cap ∧ 2 ^ (indexWidth cap - 1) < cap + 1) ∧
  (∀ s : State, s.busy = false →
    accept .readStatus s = .next { s with statusReads := s.statusReads ++ [⟨s.count, s.ovf, s.skip⟩] })

/-- The flags (R16): with no RESET accepted, `OVF` is 1 after a step exactly when it was 1 or the step accepted a PROCESS
that did not fit, and `SKIP` exactly when it was 1 or the step met a sysex closed by another byte than 0xF7. -/
def Obligations.FlagsAreSticky : Prop :=
  ∀ s t : State, step s = .next t →
    (∀ rs, ¬(s.calls = [] ∧ s.busy = false ∧ s.requests = .reset :: rs)) →
    (t.ovf = true ↔ s.ovf = true ∨ ∃ data rs, s.calls = [] ∧ s.busy = false ∧ s.requests = .process data :: rs ∧
      s.cap - s.count < data.length) ∧
    (t.skip = true ↔ s.skip = true ∨ ∃ bs p d, s.calls = [] ∧ s.busy = true ∧ s.bytes? = some bs ∧
      findCmd bs s.cursor = some p ∧ decodeStream (bs.drop p) = .ok (.sysexStart (.unterminated d)))

/-- No rule of the framer reads the flags (R16): two states that differ in nothing else step to states that differ in
nothing else, but for what a read of STATUS gave. -/
def Obligations.FlagsChangeNothingElse : Prop :=
  ∀ (s t : State) (ovf skip : Bool), step s = .next t →
    ∃ ovf' skip' reads, step { s with ovf := ovf, skip := skip } =
      .next { t with ovf := ovf', skip := skip', statusReads := reads }

/-! ## Invariants and the whole machine -/

/-- The state right after RESET meets the invariant. -/
def Obligations.ResetMeetsTheInvariant : Prop :=
  (∀ cap : Nat, 3 ≤ cap → (State.resetOf cap).Inv) ∧ State.reset.Inv

/-- Every step keeps the invariant: the capacity, INV-BOUND, the valid cells, the cursor's bound, and INV-HEAD outside a
PROCESS (R11, R12, R18, R19). That the cells from `count` on hold no value is the model's choice (log 2). -/
def Obligations.EveryStepKeepsTheInvariant : Prop :=
  ∀ s t : State, s.Inv → step s = .next t → t.Inv

/-- The block never stops of itself: with no call of the unpacker waiting, every sound state steps to a next state, whatever
bytes it holds and whatever is asked of it (R150). -/
def Obligations.SoundStateAlwaysSteps : Prop :=
  ∀ s : State, s.Inv → s.calls = [] → ∃ t, step s = .next t

/-- A pass of the loop returns, or moves the cursor forward, never past the count, and emits at most one message (R73). -/
def Obligations.EveryPassReturnsOrAdvances : Prop :=
  ∀ s t : State, s.Inv → s.calls = [] → s.busy = true → step s = .next t →
    (t.busy = false ∨ (s.cursor < t.cursor ∧ t.cursor ≤ t.count ∧ t.count = s.count)) ∧
    t.emits.length ≤ s.emits.length + 1

/-- Bytes are never reordered or altered (R18, R29): a step leaves the valid bytes, adds a prefix of the data of the PROCESS
it accepts at their end, or drops a prefix of them. -/
def Obligations.ValidBytesStayInArrivalOrder : Prop :=
  ∀ s t : State, s.Inv → step s = .next t →
    t.valid = s.valid ∨
    (∃ data rs n, s.calls = [] ∧ s.busy = false ∧ s.requests = .process data :: rs ∧
      t.valid = s.valid ++ data.take n) ∨
    ∃ n, t.valid = s.valid.drop n

/-- A sysex is emitted only with all its bytes in the buffer: its payload is at most `CAP - 3` long (R109). -/
def Obligations.EmittedSysexFitsTheBuffer : Prop :=
  ∀ (s t : State) (x : Nat) (sub : Group) (payload : List Group), s.Inv → step s = .next t →
    t.emits = s.emits ++ [⟨x, .sx sub payload⟩] → payload.length ≤ s.cap - 3

/-- A full buffer outside a PROCESS is the wedge: an open 0xF0 with `CAP - 1` data bytes (R172, by R19 and `CAP >= 3`). -/
def Obligations.FullBufferIsTheWedge : Prop :=
  ∀ s : State, s.Inv → s.busy = false → s.count = s.cap → s.wedged = true

/-- The wedge lasts until RESET (R172): a wedged block stays wedged with the same valid bytes and emits nothing, whatever
the step does, unless it accepts a RESET; a PROCESS with at least one byte sets `OVF`. -/
def Obligations.WedgeLastsUntilReset : Prop :=
  ∀ s t : State, s.wedged = true → step s = .next t →
    (∀ rs, ¬(s.calls = [] ∧ s.busy = false ∧ s.requests = .reset :: rs)) →
    t.wedged = true ∧ t.valid = s.valid ∧ t.emits = s.emits ∧
    (∀ data rs, s.calls = [] → s.busy = false → s.requests = .process data :: rs → data ≠ [] → t.ovf = true)

/-- A PROCESS is the segment view of its valid bytes (R74, R78): from any sound idle state, a PROCESS with at least one byte
returns after at most `count + 1` passes of the loop (R73, `count` as APPEND leaves it), having emitted, in order and
under its transaction's index, the messages of the segment view of the valid bytes with what was appended; the valid
bytes, `SKIP` and `OVF` are as the view and APPEND say, and nothing else has changed. (The model's choices: logs 2, 3, 4
and 5.) -/
def Obligations.ProcessIsTheSegmentView : Prop :=
  ∀ (s : State) (data : List Byte) (rs : List Request) (n : Nat) (v : View),
    s.Inv → s.busy = false → s.calls = [] → s.requests = .process data :: rs → data ≠ [] →
    n = min data.length (s.cap - s.count) → v = segmentView (s.valid ++ data.take n) →
    ∃ k, k ≤ (s.count + n) + 1 ∧ Host.Core.run Sys2Proof.core (1 + k) s = .next { s with
      requests := rs
      txn := s.txn + 1
      mem := Memory.ofBytes v.rest
      count := v.rest.length
      ovf := s.ovf || decide (n < data.length)
      skip := s.skip || v.skip
      emits := s.emits ++ v.msgs.map (fun m => ⟨s.txn + 1, m⟩)
      cursor := 0
      lat := Latches.idle }

/-- Chunk-invariance (R75): two runs of PROCESS transactions over the same bytes, cut into chunks in any two ways, emit the
same messages and end with the same valid bytes and the same `SKIP`, whenever neither has dropped a byte. -/
def Obligations.ChunkingDoesNotMatter : Prop :=
  ∀ (s t u : State) (cs ds : List (List Byte)) (k l : Nat),
    s.Inv → s.busy = false → s.calls = [] → s.ovf = false → cs.flatten = ds.flatten →
    Host.Core.run Sys2Proof.core k { s with requests := cs.map .process } = .next t →
    Host.Core.run Sys2Proof.core l { s with requests := ds.map .process } = .next u →
    t.quiet = true → u.quiet = true → t.ovf = false → u.ovf = false →
    t.emits.map EmitEvent.msg = u.emits.map EmitEvent.msg ∧ t.valid = u.valid ∧ t.skip = u.skip

/-! ## The reference consumer, outside the block -/

/-- Digital-port update (R138): pins `8*port + bit` below 21 take the bits 0..7 of the combined value, every other pin and
the rest of the consumer stay. -/
def Obligations.ConsumerDigitalUpdate : Prop :=
  ∀ (k : Consumer) (m : ChannelMessage) (pin : Nat) (hp : pin < 21), m.cmd &&& 0xF0#8 = 0x90#8 →
    m.chan = m.cmd.setWidth 4 →
    (k.receive (.ch m)).digitalInput[pin] =
      (if pin / 8 = m.cmd.toNat % 16 then (m.arg1.toNat + 2 ^ 7 * m.arg2.toNat).testBit (pin % 8)
       else k.digitalInput[pin]) ∧
    { k.receive (.ch m) with digitalInput := k.digitalInput } = k

/-- Analog-channel update (R139): the channel takes `S14(arg1, arg2)`, every update listener is called once, in registration
order, and every other channel and the rest of the consumer stay. -/
def Obligations.ConsumerAnalogUpdate : Prop :=
  ∀ (k : Consumer) (m : ChannelMessage) (v : Int) (j : Nat) (hj : j < 16), m.cmd &&& 0xF0#8 = 0xE0#8 →
    m.chan = m.cmd.setWidth 4 → v = m.arg1.toNat + 2 ^ 7 * m.arg2.toNat →
    (k.receive (.ch m)).analogChannel[j] =
      (if j = m.cmd.toNat % 16 then (if v > 8191 then v - 16384 else v) else k.analogChannel[j]) ∧
    (k.receive (.ch m)).calls = k.calls ++ k.updateListeners.map .update ∧
    { k.receive (.ch m) with analogChannel := k.analogChannel, calls := k.calls } = k

/-- Report event (R142), for a payload of six bytes: two 21-bit identifiers, source first; every event listener is called
once with them, in registration order, and the rest of the consumer stays. -/
def Obligations.ConsumerReportEvent : Prop :=
  ∀ (k : Consumer) (a b c d e f : Group),
    k.receive (.sx 0x0D#7 [a, b, c, d, e, f]) = { k with
      calls := k.calls ++ k.eventListeners.map fun l => ListenerCall.event l
        (a.toNat + 2 ^ 7 * b.toNat + 2 ^ 14 * c.toNat) (d.toNat + 2 ^ 7 * e.toNat + 2 ^ 14 * f.toNat) }

/-- Version reports (R140, R144): the strings of the two templates, the name one code per pair. -/
def Obligations.ConsumerVersionReports : Prop :=
  (∀ (k : Consumer) (m : ChannelMessage), m.cmd = 0xF9#8 → k.receive (.ch m) = { k with
    firmataVersion := ("Firmata Protocol ".toList ++ Nat.toDigits 10 m.arg1.toNat ++ ['.'] ++
      Nat.toDigits 10 m.arg2.toNat).map .char }) ∧
  (∀ (k : Consumer) (major minor : Group) (name : List Group), ∃ codes : List Nat,
    k.receive (.sx 0x79#7 (major :: minor :: name)) = { k with
      firmwareVersion := codes.map .code ++
        ([' '] ++ Nat.toDigits 10 major.toNat ++ ['.'] ++ Nat.toDigits 10 minor.toNat).map .char } ∧
    codes.length = name.length / 2 ∧
    ∀ j, j < name.length / 2 → codes.getD j 0 = (name.getD (2 * j) 0).toNat + 2 ^ 7 * (name.getD (2 * j + 1) 0).toNat)

/-- Everything else is ignored (R145): every other channel message, and every subcommand other than the three that are
routed; and a debug string changes no state of the consumer but what has been shown (R143). -/
def Obligations.ConsumerIgnoresEverythingElse : Prop :=
  (∀ (k : Consumer) (m : ChannelMessage), m.cmd &&& 0xF0#8 ≠ 0x90#8 → m.cmd &&& 0xF0#8 ≠ 0xE0#8 → m.cmd ≠ 0xF9#8 →
    k.receive (.ch m) = k) ∧
  (∀ (k : Consumer) (sub : Group) (payload : List Group), sub ≠ 0x0D#7 → sub ≠ 0x79#7 →
    { k.receive (.sx sub payload) with shown := k.shown } = k ∧ (sub ≠ 0x0E#7 → k.receive (.sx sub payload) = k))

/-- Debug string (R143): the payload is decoded, one code per pair, and shown once; nothing else changes. (That the packing
is PAIR is read from the spec by inference, N7: log 19.) -/
def Obligations.ConsumerShowsDebugStrings : Prop :=
  ∀ (k : Consumer) (payload : List Group), ∃ codes : List Nat,
    k.receive (.sx 0x0E#7 payload) = { k with shown := k.shown ++ [codes.map .code] } ∧
    codes.length = payload.length / 2 ∧
    ∀ j, j < payload.length / 2 →
      codes.getD j 0 = (payload.getD (2 * j) 0).toNat + 2 ^ 7 * (payload.getD (2 * j + 1) 0).toNat

/-- Consumer state (R147): at the start both strings are empty, and pins and channels are as given; a registration puts the
listener at the end, again if it is there already, and changes nothing else. (The model's choices: that nobody is
registered at the start, for which the spec gives no value, log 20; that pins and channels are arguments, log 14.) -/
def Obligations.ConsumerStartAndRegistration : Prop :=
  (∀ (pins : Vector Bool 21) (channels : Vector Int 16),
    (Consumer.start pins channels).firmataVersion = [] ∧ (Consumer.start pins channels).firmwareVersion = [] ∧
    (Consumer.start pins channels).eventListeners = [] ∧ (Consumer.start pins channels).updateListeners = [] ∧
    (Consumer.start pins channels).digitalInput = pins ∧ (Consumer.start pins channels).analogChannel = channels) ∧
  ∀ (k : Consumer) (l : Nat),
    k.registerEvent l = { k with eventListeners := k.eventListeners ++ [l] } ∧
    k.registerUpdate l = { k with updateListeners := k.updateListeners ++ [l] }

/-- The sink, that is, the consumer, takes a message inside the step that emits it (R146, R72), whatever sink it is (R5,
R158): the block steps as it does without one, and the sink has taken the one message that the step emitted, or has not
changed. The second clause is the reference consumer. (One step holds an EMIT and all the sink does on it: log 8.) -/
def Obligations.MessageReachesTheConsumerInItsStep : Prop :=
  (∀ (κ : Type) (take : κ → Message → κ) (y : System κ),
    (∀ t, step y.block = .next t → ∃ y', y.step take = .next y' ∧ y'.block = t ∧
      ((t.emits = y.block.emits ∧ y'.sink = y.sink) ∨
        ∃ m, t.emits = y.block.emits ++ [⟨y.block.txn, m⟩] ∧ y'.sink = take y.sink m)) ∧
    (∀ f, step y.block = .fault f → y.step take = .fault f) ∧
    (∀ r, step y.block = .refused r → y.step take = .refused r)) ∧
  (∀ (y : System Consumer) (t : State), step y.block = .next t →
    ∃ y', referenceStep y = .next y' ∧ y'.block = t ∧
      ((t.emits = y.block.emits ∧ y'.sink = y.sink) ∨
        ∃ m, t.emits = y.block.emits ++ [⟨y.block.txn, m⟩] ∧ y'.sink = y.sink.receive m))

/-- Over a run of any length the sink, that is, the consumer, takes exactly the messages the block emits, each once, in their
order (R146, R76, R158), whatever sink it is, and the block runs as it does without one, so that no sink can change what
is emitted. The second clause is the reference consumer. -/
def Obligations.ConsumerFollowsTheEmitSequence : Prop :=
  (∀ (κ : Type) (take : κ → Message → κ) (start : κ) (n : Nat) (y y' : System κ),
    Host.Core.run (System.core take start) n y = .next y' →
    Host.Core.run Sys2Proof.core n y.block = .next y'.block ∧
    ∃ events : List EmitEvent, y'.block.emits = y.block.emits ++ events ∧
      y'.sink = (events.map EmitEvent.msg).foldl take y.sink) ∧
  (∀ (k : Consumer) (n : Nat) (y y' : System Consumer),
    Host.Core.run (System.core Consumer.receive k) n y = .next y' →
    ∃ events : List EmitEvent, y'.block.emits = y.block.emits ++ events ∧
      y'.sink = y.sink.receiveAll (events.map EmitEvent.msg))
end

