-- ==== Sys2Proof/Laws/Memory.lean ====
section
/-!
SUPPORT. The laws of the buffer: the canonical form is kept, a read after a write, and the buffer whose valid cells are
exactly those below a count, which every primitive maps to a buffer of the same kind.
-/

namespace Sys2Proof.Machine

namespace Memory

/-! ## Reading after a write -/

@[simp] theorem read_nil (a : Nat) : Memory.read [] a = none := rfl

theorem read_cons (k : Nat) (b : Byte) (m : Memory) (a : Nat) :
    Memory.read ((k, b) :: m) a = if k = a then some b else Memory.read m a := rfl

@[simp] theorem read_write_same (m : Memory) (a : Nat) (v : Byte) : (m.write a v).read a = some v := by
  induction m with
  | nil => simp [write, read]
  | cons c m ih =>
    obtain ⟨k, b⟩ := c
    simp only [write]
    split
    · simp [read]
    · split
      · simp [read]
      · rename_i h; simp [read, ih, Ne.symm h]

theorem read_write_other (m : Memory) {a i : Nat} (v : Byte) (h : i ≠ a) : (m.write a v).read i = m.read i := by
  induction m with
  | nil => simp [write, read, Ne.symm h]
  | cons c m ih =>
    obtain ⟨k, b⟩ := c
    simp only [write]
    split
    · simp [read, Ne.symm h]
    · split
      · subst_vars; simp [read, Ne.symm h]
      · simp [read, ih]

theorem read_writeRun (m : Memory) (a : Nat) (bs : List Byte) (i : Nat) :
    (m.writeRun a bs).read i = if a ≤ i ∧ i < a + bs.length then bs[i - a]? else m.read i := by
  induction bs generalizing m a with
  | nil => simp only [writeRun, List.length_nil]; rw [if_neg (by omega)]
  | cons b bs ih =>
    simp only [writeRun, ih, List.length_cons]
    by_cases h : i = a
    · subst h; rw [if_neg (by omega), if_pos (by omega)]; simp
    · rw [read_write_other _ _ h]
      by_cases h2 : a + 1 ≤ i ∧ i < a + 1 + bs.length
      · rw [if_pos h2, if_pos (by omega), show i - a = (i - (a + 1)) + 1 by omega]; simp
      · rw [if_neg h2, if_neg (by omega)]

theorem read_moveDown (m : Memory) (s n i : Nat) :
    (m.moveDown s n).read i = if s + i < n then m.read (s + i) else none := by
  induction m with
  | nil => simp [moveDown, read]
  | cons c m ih =>
    obtain ⟨k, b⟩ := c
    simp only [moveDown, List.filter_cons] at ih ⊢
    split
    · rename_i h
      simp only [Bool.and_eq_true, decide_eq_true_eq] at h
      simp only [List.map_cons, read_cons, ih]
      by_cases h2 : k = s + i
      · subst h2; simp [h.2]
      · rw [if_neg (by omega), if_neg h2]
    · rename_i h
      simp only [Bool.and_eq_true, decide_eq_true_eq] at h
      rw [ih, read_cons]
      split
      · rw [if_neg (by omega)]
      · rfl

/-! ## The canonical form is kept -/

theorem wf_nil : Memory.wf [] := by simp [wf]

theorem mem_keys_write {m : Memory} {a k : Nat} {v : Byte} (h : k ∈ (m.write a v).map Prod.fst) :
    k = a ∨ k ∈ m.map Prod.fst := by
  induction m with
  | nil => simpa [write] using h
  | cons c m ih =>
    obtain ⟨j, b⟩ := c
    simp only [write] at h
    split at h
    · simpa using h
    · split at h
      · simp only [List.map_cons, List.mem_cons] at h ⊢; tauto
      · simp only [List.map_cons, List.mem_cons] at h ⊢
        rcases h with h | h
        · tauto
        · rcases ih h with h | h <;> tauto

theorem wf_write {m : Memory} (h : m.wf) (a : Nat) (v : Byte) : (m.write a v).wf := by
  induction m with
  | nil => simp [write, wf]
  | cons c m ih =>
    obtain ⟨k, b⟩ := c
    simp only [wf, List.map_cons, List.pairwise_cons] at h ih ⊢
    simp only [write]
    split
    · rename_i hlt
      simp only [List.map_cons, List.pairwise_cons, List.mem_cons]
      refine ⟨fun j hj => ?_, h.1, h.2⟩
      rcases hj with rfl | hj
      · exact hlt
      · exact lt_trans hlt (h.1 j hj)
    · split
      · rename_i heq; subst heq; simpa using h
      · rename_i h1 h2
        simp only [List.map_cons, List.pairwise_cons]
        refine ⟨fun j hj => ?_, ih h.2⟩
        rcases mem_keys_write hj with rfl | hj
        · omega
        · exact h.1 j hj

theorem wf_writeRun {m : Memory} (h : m.wf) (a : Nat) (bs : List Byte) : (m.writeRun a bs).wf := by
  induction bs generalizing m a with
  | nil => exact h
  | cons b bs ih => exact ih (wf_write h a b) (a + 1)

theorem wf_moveDown {m : Memory} (h : m.wf) (s n : Nat) : (m.moveDown s n).wf := by
  simp only [wf, moveDown, List.map_map, List.pairwise_map] at h ⊢
  have hf := h.filter fun c : Nat × Byte => decide (s ≤ c.1) && decide (c.1 < n)
  refine List.Pairwise.imp_of_mem ?_ hf
  intro x y hx hy hlt
  simp only [List.mem_filter, Bool.and_eq_true, decide_eq_true_eq] at hx hy
  simp only [Function.comp]
  omega

/-! ## Buffers whose valid cells are those from an index on -/

@[simp] theorem cellsFrom_nil (k : Nat) : cellsFrom k [] = [] := rfl

@[simp] theorem length_cellsFrom (k : Nat) (bs : List Byte) : (cellsFrom k bs).length = bs.length := by
  induction bs generalizing k with
  | nil => rfl
  | cons b bs ih => simp [cellsFrom, ih]

@[simp] theorem keys_cellsFrom (k : Nat) (bs : List Byte) :
    (cellsFrom k bs).map Prod.fst = List.range' k bs.length := by
  induction bs generalizing k with
  | nil => rfl
  | cons b bs ih => simp [cellsFrom, ih, List.range'_succ]

@[simp] theorem bytes_cellsFrom (k : Nat) (bs : List Byte) : (cellsFrom k bs).map Prod.snd = bs := by
  induction bs generalizing k with
  | nil => rfl
  | cons b bs ih => simp [cellsFrom, ih]

theorem eq_cellsFrom {m : Memory} {k n : Nat} (h : m.map Prod.fst = List.range' k n) :
    m = cellsFrom k (m.map Prod.snd) := by
  induction m generalizing k n with
  | nil => rfl
  | cons c m ih =>
    obtain ⟨j, b⟩ := c
    cases n with
    | zero => simp at h
    | succ n =>
      simp only [List.map_cons, List.range'_succ, List.cons.injEq] at h
      obtain ⟨rfl, h⟩ := h
      simp only [List.map_cons, cellsFrom]
      rw [← ih h]

/-- A buffer whose valid cells are those below `n` is the buffer of `n` valid bytes. -/
theorem eq_ofBytes {m : Memory} {n : Nat} (h : m.map Prod.fst = List.range n) :
    m = ofBytes (m.map Prod.snd) ∧ (m.map Prod.snd).length = n := by
  rw [List.range_eq_range'] at h
  refine ⟨eq_cellsFrom h, ?_⟩
  have := congrArg List.length h
  simpa using this

@[simp] theorem keys_ofBytes (bs : List Byte) : (ofBytes bs).map Prod.fst = List.range bs.length := by
  simp [ofBytes, List.range_eq_range']

theorem wf_ofBytes (bs : List Byte) : (ofBytes bs).wf := by
  rw [wf, keys_ofBytes]; exact List.pairwise_lt_range

theorem read_cellsFrom (k : Nat) (bs : List Byte) (i : Nat) :
    (cellsFrom k bs).read i = if k ≤ i then bs[i - k]? else none := by
  induction bs generalizing k with
  | nil => simp
  | cons b bs ih =>
    simp only [cellsFrom, read_cons, ih]
    by_cases h : k = i
    · subst h; simp
    · rw [if_neg h]
      by_cases h2 : k ≤ i
      · rw [if_pos (by omega), if_pos h2, show i - k = (i - (k + 1)) + 1 by omega]; simp
      · rw [if_neg (by omega), if_neg h2]

@[simp] theorem read_ofBytes (bs : List Byte) (i : Nat) : (ofBytes bs).read i = bs[i]? := by
  simp [ofBytes, read_cellsFrom]

theorem readRun_of_getElem {m : Memory} {a : Nat} {bs : List Byte}
    (h : ∀ i, i < bs.length → m.read (a + i) = bs[i]?) : m.readRun a bs.length = some bs := by
  induction bs generalizing a with
  | nil => rfl
  | cons b bs ih =>
    have h0 : m.read a = some b := by simpa using h 0 (by simp)
    have ht : m.readRun (a + 1) bs.length = some bs := ih fun i hi => by
      have := h (i + 1) (by simpa using hi)
      simpa [Nat.add_comm, Nat.add_left_comm] using this
    simp [readRun, h0, ht]

@[simp] theorem readRun_ofBytes (bs : List Byte) : (ofBytes bs).readRun 0 bs.length = some bs :=
  readRun_of_getElem fun i _ => by simp

theorem write_end (k : Nat) (bs : List Byte) (v : Byte) :
    (cellsFrom k bs).write (k + bs.length) v = cellsFrom k (bs ++ [v]) := by
  induction bs generalizing k with
  | nil => rfl
  | cons b bs ih =>
    have hih := ih (k + 1)
    rw [show k + 1 + bs.length = k + (bs.length + 1) by omega] at hih
    simp only [cellsFrom, List.cons_append, List.length_cons, write]
    rw [if_neg (by omega), if_neg (by omega), hih]

/-- APPEND at the end of the valid bytes adds to them (R26). -/
@[simp] theorem writeRun_ofBytes (bs data : List Byte) :
    (ofBytes bs).writeRun bs.length data = ofBytes (bs ++ data) := by
  induction data generalizing bs with
  | nil => simp [writeRun]
  | cons d ds ih =>
    have h := write_end 0 bs d
    simp only [Nat.zero_add] at h
    have h2 := ih (bs ++ [d])
    simp only [List.length_append, List.length_cons, List.length_nil, List.append_assoc, List.cons_append,
      List.nil_append] at h2
    simpa [writeRun, ofBytes, h] using h2

theorem moveDown_cellsFrom (k : Nat) (bs : List Byte) (s n : Nat) (hs : k ≤ s) (hn : n = k + bs.length) :
    (cellsFrom k bs).moveDown s n = cellsFrom 0 (bs.drop (s - k)) := by
  induction bs generalizing k with
  | nil => simp [moveDown]
  | cons b bs ih =>
    subst hn
    by_cases h : s = k
    · subst h
      have key : ∀ (j : Nat) (l : List Byte), s ≤ j → j + l.length = s + (bs.length + 1) →
          (cellsFrom j l).moveDown s (s + (bs.length + 1)) = cellsFrom (j - s) l := by
        intro j l
        induction l generalizing j with
        | nil => intros; simp [moveDown]
        | cons x l ihl =>
          intro hj hl
          simp only [List.length_cons] at hl
          have := ihl (j + 1) (by omega) (by omega)
          simp only [moveDown] at this
          simp only [moveDown, cellsFrom, List.filter_cons]
          rw [if_pos (by simp; omega), List.map_cons, this, show j + 1 - s = j - s + 1 by omega]
      simpa using key s (b :: bs) le_rfl (by simp)
    · have := ih (k + 1) (by omega) (by simp; omega)
      simp only [moveDown] at this
      simp only [moveDown, cellsFrom, List.filter_cons]
      rw [if_neg (by simp; omega), this, show s - k = (s - (k + 1)) + 1 by omega]
      simp

/-- COMPACT drops the bytes before the index it is given (R30). -/
@[simp] theorem moveDown_ofBytes (bs : List Byte) (s : Nat) :
    (ofBytes bs).moveDown s bs.length = ofBytes (bs.drop s) := by
  simpa [ofBytes] using moveDown_cellsFrom 0 bs s bs.length (Nat.zero_le s) (by simp)

end Memory

theorem State.reset_mem_wf : State.reset.mem.wf := Memory.wf_nil

end Sys2Proof.Machine
end

