-- ==== Sys2Proof/Laws/State.lean ====
section
/-!
SUPPORT. One lemma per field per update of the state, so that no proof unfolds a record update.
-/

namespace Sys2Proof.Machine

variable (s : State)

@[simp] theorem State.store_cap (data : List Byte) : (s.store data).cap = s.cap := rfl
@[simp] theorem State.store_mem (data : List Byte) : (s.store data).mem = s.mem.writeRun s.count (data.take (s.room data.length)) := rfl
@[simp] theorem State.store_count (data : List Byte) : (s.store data).count = s.count + s.room data.length := rfl
@[simp] theorem State.store_ovf (data : List Byte) : (s.store data).ovf = s.ovf := rfl
@[simp] theorem State.store_skip (data : List Byte) : (s.store data).skip = s.skip := rfl
@[simp] theorem State.store_busy (data : List Byte) : (s.store data).busy = s.busy := rfl
@[simp] theorem State.store_initialised (data : List Byte) : (s.store data).initialised = s.initialised := rfl
@[simp] theorem State.store_cursor (data : List Byte) : (s.store data).cursor = s.cursor := rfl
@[simp] theorem State.store_lat (data : List Byte) : (s.store data).lat = s.lat := rfl
@[simp] theorem State.store_txn (data : List Byte) : (s.store data).txn = s.txn := rfl
@[simp] theorem State.store_requests (data : List Byte) : (s.store data).requests = s.requests := rfl
@[simp] theorem State.store_calls (data : List Byte) : (s.store data).calls = s.calls := rfl
@[simp] theorem State.store_emits (data : List Byte) : (s.store data).emits = s.emits := rfl
@[simp] theorem State.store_results (data : List Byte) : (s.store data).results = s.results := rfl
@[simp] theorem State.store_statusReads (data : List Byte) : (s.store data).statusReads = s.statusReads := rfl

@[simp] theorem State.append_cap (data : List Byte) : (s.append data).cap = s.cap := rfl
@[simp] theorem State.append_mem (data : List Byte) : (s.append data).mem = s.mem.writeRun s.count (data.take (s.room data.length)) := rfl
@[simp] theorem State.append_count (data : List Byte) : (s.append data).count = s.count + s.room data.length := rfl
@[simp] theorem State.append_ovf (data : List Byte) : (s.append data).ovf = ovfAfter s.ovf data.length (s.room data.length) := rfl
@[simp] theorem State.append_skip (data : List Byte) : (s.append data).skip = s.skip := rfl
@[simp] theorem State.append_busy (data : List Byte) : (s.append data).busy = s.busy := rfl
@[simp] theorem State.append_initialised (data : List Byte) : (s.append data).initialised = s.initialised := rfl
@[simp] theorem State.append_cursor (data : List Byte) : (s.append data).cursor = s.cursor := rfl
@[simp] theorem State.append_lat (data : List Byte) : (s.append data).lat = s.lat := rfl
@[simp] theorem State.append_txn (data : List Byte) : (s.append data).txn = s.txn := rfl
@[simp] theorem State.append_requests (data : List Byte) : (s.append data).requests = s.requests := rfl
@[simp] theorem State.append_calls (data : List Byte) : (s.append data).calls = s.calls := rfl
@[simp] theorem State.append_emits (data : List Byte) : (s.append data).emits = s.emits := rfl
@[simp] theorem State.append_results (data : List Byte) : (s.append data).results = s.results := rfl
@[simp] theorem State.append_statusReads (data : List Byte) : (s.append data).statusReads = s.statusReads := rfl

@[simp] theorem State.compact_cap (i : Nat) : (s.compact i).cap = s.cap := rfl
@[simp] theorem State.compact_mem (i : Nat) : (s.compact i).mem = s.mem.moveDown i s.count := rfl
@[simp] theorem State.compact_count (i : Nat) : (s.compact i).count = s.count - i := rfl
@[simp] theorem State.compact_ovf (i : Nat) : (s.compact i).ovf = s.ovf := rfl
@[simp] theorem State.compact_skip (i : Nat) : (s.compact i).skip = s.skip := rfl
@[simp] theorem State.compact_busy (i : Nat) : (s.compact i).busy = s.busy := rfl
@[simp] theorem State.compact_initialised (i : Nat) : (s.compact i).initialised = s.initialised := rfl
@[simp] theorem State.compact_cursor (i : Nat) : (s.compact i).cursor = s.cursor := rfl
@[simp] theorem State.compact_lat (i : Nat) : (s.compact i).lat = s.lat := rfl
@[simp] theorem State.compact_txn (i : Nat) : (s.compact i).txn = s.txn := rfl
@[simp] theorem State.compact_requests (i : Nat) : (s.compact i).requests = s.requests := rfl
@[simp] theorem State.compact_calls (i : Nat) : (s.compact i).calls = s.calls := rfl
@[simp] theorem State.compact_emits (i : Nat) : (s.compact i).emits = s.emits := rfl
@[simp] theorem State.compact_results (i : Nat) : (s.compact i).results = s.results := rfl
@[simp] theorem State.compact_statusReads (i : Nat) : (s.compact i).statusReads = s.statusReads := rfl

@[simp] theorem State.discard_cap : (s.discard).cap = s.cap := rfl
@[simp] theorem State.discard_mem : (s.discard).mem = [] := rfl
@[simp] theorem State.discard_count : (s.discard).count = 0 := rfl
@[simp] theorem State.discard_ovf : (s.discard).ovf = s.ovf := rfl
@[simp] theorem State.discard_skip : (s.discard).skip = s.skip := rfl
@[simp] theorem State.discard_busy : (s.discard).busy = s.busy := rfl
@[simp] theorem State.discard_initialised : (s.discard).initialised = s.initialised := rfl
@[simp] theorem State.discard_cursor : (s.discard).cursor = s.cursor := rfl
@[simp] theorem State.discard_lat : (s.discard).lat = s.lat := rfl
@[simp] theorem State.discard_txn : (s.discard).txn = s.txn := rfl
@[simp] theorem State.discard_requests : (s.discard).requests = s.requests := rfl
@[simp] theorem State.discard_calls : (s.discard).calls = s.calls := rfl
@[simp] theorem State.discard_emits : (s.discard).emits = s.emits := rfl
@[simp] theorem State.discard_results : (s.discard).results = s.results := rfl
@[simp] theorem State.discard_statusReads : (s.discard).statusReads = s.statusReads := rfl

@[simp] theorem State.finish_cap : (s.finish).cap = s.cap := rfl
@[simp] theorem State.finish_mem : (s.finish).mem = s.mem := rfl
@[simp] theorem State.finish_count : (s.finish).count = s.count := rfl
@[simp] theorem State.finish_ovf : (s.finish).ovf = s.ovf := rfl
@[simp] theorem State.finish_skip : (s.finish).skip = s.skip := rfl
@[simp] theorem State.finish_busy : (s.finish).busy = false := rfl
@[simp] theorem State.finish_initialised : (s.finish).initialised = s.initialised := rfl
@[simp] theorem State.finish_cursor : (s.finish).cursor = 0 := rfl
@[simp] theorem State.finish_lat : (s.finish).lat = Latches.idle := rfl
@[simp] theorem State.finish_txn : (s.finish).txn = s.txn := rfl
@[simp] theorem State.finish_requests : (s.finish).requests = s.requests := rfl
@[simp] theorem State.finish_calls : (s.finish).calls = s.calls := rfl
@[simp] theorem State.finish_emits : (s.finish).emits = s.emits := rfl
@[simp] theorem State.finish_results : (s.finish).results = s.results := rfl
@[simp] theorem State.finish_statusReads : (s.finish).statusReads = s.statusReads := rfl

@[simp] theorem State.emit_cap (m : Message) : (s.emit m).cap = s.cap := rfl
@[simp] theorem State.emit_mem (m : Message) : (s.emit m).mem = s.mem := rfl
@[simp] theorem State.emit_count (m : Message) : (s.emit m).count = s.count := rfl
@[simp] theorem State.emit_ovf (m : Message) : (s.emit m).ovf = s.ovf := rfl
@[simp] theorem State.emit_skip (m : Message) : (s.emit m).skip = s.skip := rfl
@[simp] theorem State.emit_busy (m : Message) : (s.emit m).busy = s.busy := rfl
@[simp] theorem State.emit_initialised (m : Message) : (s.emit m).initialised = s.initialised := rfl
@[simp] theorem State.emit_cursor (m : Message) : (s.emit m).cursor = s.cursor := rfl
@[simp] theorem State.emit_lat (m : Message) : (s.emit m).lat = s.lat := rfl
@[simp] theorem State.emit_txn (m : Message) : (s.emit m).txn = s.txn := rfl
@[simp] theorem State.emit_requests (m : Message) : (s.emit m).requests = s.requests := rfl
@[simp] theorem State.emit_calls (m : Message) : (s.emit m).calls = s.calls := rfl
@[simp] theorem State.emit_emits (m : Message) : (s.emit m).emits = s.emits ++ [⟨s.txn, m⟩] := rfl
@[simp] theorem State.emit_results (m : Message) : (s.emit m).results = s.results := rfl
@[simp] theorem State.emit_statusReads (m : Message) : (s.emit m).statusReads = s.statusReads := rfl

@[simp] theorem State.advance_cap (v : Nat) : (s.advance v).cap = s.cap := rfl
@[simp] theorem State.advance_mem (v : Nat) : (s.advance v).mem = s.mem := rfl
@[simp] theorem State.advance_count (v : Nat) : (s.advance v).count = s.count := rfl
@[simp] theorem State.advance_ovf (v : Nat) : (s.advance v).ovf = s.ovf := rfl
@[simp] theorem State.advance_skip (v : Nat) : (s.advance v).skip = s.skip := rfl
@[simp] theorem State.advance_busy (v : Nat) : (s.advance v).busy = s.busy := rfl
@[simp] theorem State.advance_initialised (v : Nat) : (s.advance v).initialised = s.initialised := rfl
@[simp] theorem State.advance_cursor (v : Nat) : (s.advance v).cursor = v := rfl
@[simp] theorem State.advance_lat (v : Nat) : (s.advance v).lat = s.lat := rfl
@[simp] theorem State.advance_txn (v : Nat) : (s.advance v).txn = s.txn := rfl
@[simp] theorem State.advance_requests (v : Nat) : (s.advance v).requests = s.requests := rfl
@[simp] theorem State.advance_calls (v : Nat) : (s.advance v).calls = s.calls := rfl
@[simp] theorem State.advance_emits (v : Nat) : (s.advance v).emits = s.emits := rfl
@[simp] theorem State.advance_results (v : Nat) : (s.advance v).results = s.results := rfl
@[simp] theorem State.advance_statusReads (v : Nat) : (s.advance v).statusReads = s.statusReads := rfl

@[simp] theorem State.latch_cap (bs : List Byte) (p : Nat) : (s.latch bs p).cap = s.cap := rfl
@[simp] theorem State.latch_mem (bs : List Byte) (p : Nat) : (s.latch bs p).mem = s.mem := rfl
@[simp] theorem State.latch_count (bs : List Byte) (p : Nat) : (s.latch bs p).count = s.count := rfl
@[simp] theorem State.latch_ovf (bs : List Byte) (p : Nat) : (s.latch bs p).ovf = s.ovf := rfl
@[simp] theorem State.latch_skip (bs : List Byte) (p : Nat) : (s.latch bs p).skip = s.skip := rfl
@[simp] theorem State.latch_busy (bs : List Byte) (p : Nat) : (s.latch bs p).busy = s.busy := rfl
@[simp] theorem State.latch_initialised (bs : List Byte) (p : Nat) : (s.latch bs p).initialised = s.initialised := rfl
@[simp] theorem State.latch_cursor (bs : List Byte) (p : Nat) : (s.latch bs p).cursor = s.cursor := rfl
@[simp] theorem State.latch_lat (bs : List Byte) (p : Nat) : (s.latch bs p).lat = latchesAt bs p := rfl
@[simp] theorem State.latch_txn (bs : List Byte) (p : Nat) : (s.latch bs p).txn = s.txn := rfl
@[simp] theorem State.latch_requests (bs : List Byte) (p : Nat) : (s.latch bs p).requests = s.requests := rfl
@[simp] theorem State.latch_calls (bs : List Byte) (p : Nat) : (s.latch bs p).calls = s.calls := rfl
@[simp] theorem State.latch_emits (bs : List Byte) (p : Nat) : (s.latch bs p).emits = s.emits := rfl
@[simp] theorem State.latch_results (bs : List Byte) (p : Nat) : (s.latch bs p).results = s.results := rfl
@[simp] theorem State.latch_statusReads (bs : List Byte) (p : Nat) : (s.latch bs p).statusReads = s.statusReads := rfl

@[simp] theorem State.deliver_cap (r : UnpackResult) : (s.deliver r).cap = s.cap := rfl
@[simp] theorem State.deliver_mem (r : UnpackResult) : (s.deliver r).mem = s.mem := rfl
@[simp] theorem State.deliver_count (r : UnpackResult) : (s.deliver r).count = s.count := rfl
@[simp] theorem State.deliver_ovf (r : UnpackResult) : (s.deliver r).ovf = s.ovf := rfl
@[simp] theorem State.deliver_skip (r : UnpackResult) : (s.deliver r).skip = s.skip := rfl
@[simp] theorem State.deliver_busy (r : UnpackResult) : (s.deliver r).busy = s.busy := rfl
@[simp] theorem State.deliver_initialised (r : UnpackResult) : (s.deliver r).initialised = s.initialised := rfl
@[simp] theorem State.deliver_cursor (r : UnpackResult) : (s.deliver r).cursor = s.cursor := rfl
@[simp] theorem State.deliver_lat (r : UnpackResult) : (s.deliver r).lat = s.lat := rfl
@[simp] theorem State.deliver_txn (r : UnpackResult) : (s.deliver r).txn = s.txn := rfl
@[simp] theorem State.deliver_requests (r : UnpackResult) : (s.deliver r).requests = s.requests := rfl
@[simp] theorem State.deliver_calls (r : UnpackResult) : (s.deliver r).calls = s.calls := rfl
@[simp] theorem State.deliver_emits (r : UnpackResult) : (s.deliver r).emits = s.emits := rfl
@[simp] theorem State.deliver_results (r : UnpackResult) : (s.deliver r).results = s.results ++ [r] := rfl
@[simp] theorem State.deliver_statusReads (r : UnpackResult) : (s.deliver r).statusReads = s.statusReads := rfl

@[simp] theorem State.raiseSkip_cap : (s.raiseSkip).cap = s.cap := rfl
@[simp] theorem State.raiseSkip_mem : (s.raiseSkip).mem = s.mem := rfl
@[simp] theorem State.raiseSkip_count : (s.raiseSkip).count = s.count := rfl
@[simp] theorem State.raiseSkip_ovf : (s.raiseSkip).ovf = s.ovf := rfl
@[simp] theorem State.raiseSkip_skip : (s.raiseSkip).skip = true := rfl
@[simp] theorem State.raiseSkip_busy : (s.raiseSkip).busy = s.busy := rfl
@[simp] theorem State.raiseSkip_initialised : (s.raiseSkip).initialised = s.initialised := rfl
@[simp] theorem State.raiseSkip_cursor : (s.raiseSkip).cursor = s.cursor := rfl
@[simp] theorem State.raiseSkip_lat : (s.raiseSkip).lat = s.lat := rfl
@[simp] theorem State.raiseSkip_txn : (s.raiseSkip).txn = s.txn := rfl
@[simp] theorem State.raiseSkip_requests : (s.raiseSkip).requests = s.requests := rfl
@[simp] theorem State.raiseSkip_calls : (s.raiseSkip).calls = s.calls := rfl
@[simp] theorem State.raiseSkip_emits : (s.raiseSkip).emits = s.emits := rfl
@[simp] theorem State.raiseSkip_results : (s.raiseSkip).results = s.results := rfl
@[simp] theorem State.raiseSkip_statusReads : (s.raiseSkip).statusReads = s.statusReads := rfl

@[simp] theorem State.applyReset_cap : (s.applyReset).cap = s.cap := rfl
@[simp] theorem State.applyReset_mem : (s.applyReset).mem = [] := rfl
@[simp] theorem State.applyReset_count : (s.applyReset).count = 0 := rfl
@[simp] theorem State.applyReset_ovf : (s.applyReset).ovf = false := rfl
@[simp] theorem State.applyReset_skip : (s.applyReset).skip = false := rfl
@[simp] theorem State.applyReset_busy : (s.applyReset).busy = false := rfl
@[simp] theorem State.applyReset_initialised : (s.applyReset).initialised = true := rfl
@[simp] theorem State.applyReset_cursor : (s.applyReset).cursor = 0 := rfl
@[simp] theorem State.applyReset_lat : (s.applyReset).lat = Latches.idle := rfl
@[simp] theorem State.applyReset_txn : (s.applyReset).txn = s.txn + 1 := rfl
@[simp] theorem State.applyReset_requests : (s.applyReset).requests = s.requests := rfl
@[simp] theorem State.applyReset_calls : (s.applyReset).calls = s.calls := rfl
@[simp] theorem State.applyReset_emits : (s.applyReset).emits = s.emits := rfl
@[simp] theorem State.applyReset_results : (s.applyReset).results = s.results := rfl
@[simp] theorem State.applyReset_statusReads : (s.applyReset).statusReads = s.statusReads := rfl

@[simp] theorem State.answerStatus_cap : (s.answerStatus).cap = s.cap := rfl
@[simp] theorem State.answerStatus_mem : (s.answerStatus).mem = s.mem := rfl
@[simp] theorem State.answerStatus_count : (s.answerStatus).count = s.count := rfl
@[simp] theorem State.answerStatus_ovf : (s.answerStatus).ovf = s.ovf := rfl
@[simp] theorem State.answerStatus_skip : (s.answerStatus).skip = s.skip := rfl
@[simp] theorem State.answerStatus_busy : (s.answerStatus).busy = s.busy := rfl
@[simp] theorem State.answerStatus_initialised : (s.answerStatus).initialised = s.initialised := rfl
@[simp] theorem State.answerStatus_cursor : (s.answerStatus).cursor = s.cursor := rfl
@[simp] theorem State.answerStatus_lat : (s.answerStatus).lat = s.lat := rfl
@[simp] theorem State.answerStatus_txn : (s.answerStatus).txn = s.txn := rfl
@[simp] theorem State.answerStatus_requests : (s.answerStatus).requests = s.requests := rfl
@[simp] theorem State.answerStatus_calls : (s.answerStatus).calls = s.calls := rfl
@[simp] theorem State.answerStatus_emits : (s.answerStatus).emits = s.emits := rfl
@[simp] theorem State.answerStatus_results : (s.answerStatus).results = s.results := rfl
@[simp] theorem State.answerStatus_statusReads : (s.answerStatus).statusReads = s.statusReads ++ [s.status] := rfl

@[simp] theorem State.startProcess_nil : s.startProcess [] = { s with txn := s.txn + 1 } := rfl

theorem State.startProcess_of_ne_nil {data : List Byte} (h : data ≠ []) :
    s.startProcess data = { s.append data with cursor := 0, busy := true, txn := s.txn + 1 } := by
  rw [State.startProcess, if_neg h]

@[simp] theorem State.resetOf_mem (cap : Nat) : (State.resetOf cap).mem = [] := rfl
@[simp] theorem State.resetOf_count (cap : Nat) : (State.resetOf cap).count = 0 := rfl
@[simp] theorem State.resetOf_busy (cap : Nat) : (State.resetOf cap).busy = false := rfl
@[simp] theorem State.resetOf_cap (cap : Nat) : (State.resetOf cap).cap = cap := rfl

end Sys2Proof.Machine
end

