-- ==== Sys2Proof/Laws/Ops.lean ====
section
/-!
SUPPORT. What each shared operation can do, said once: the stream's first command byte, the meanings, the acceptance of a
request, the fetch and the step.
-/

namespace Sys2Proof.Machine

/-! ## Data bytes and command bytes -/

/-- A list of data bytes, for the laws. -/
def AllData (bs : List Byte) : Prop := ∀ b ∈ bs, isCommand b = false

theorem afterData_eq_drop (bs : List Byte) : afterData bs = bs.drop (dataPrefix bs).length := by
  induction bs with
  | nil => rfl
  | cons b bs ih => by_cases h : isCommand b <;> simp [afterData, dataPrefix, h, ih]

theorem afterData_head {bs rest : List Byte} {e : Byte} (h : afterData bs = e :: rest) : isCommand e = true := by
  induction bs with
  | nil => simp [afterData] at h
  | cons b bs ih =>
    by_cases hb : isCommand b
    · simp [afterData, hb] at h; exact h.1 ▸ hb
    · simp [afterData, hb] at h; exact ih h

theorem byteOf_groupOf {b : Byte} (h : isCommand b = false) : byteOf (groupOf b) = b := by
  revert b; decide

@[simp] theorem groupOf_byteOf (g : Group) : groupOf (byteOf g) = g := by
  revert g; decide

@[simp] theorem isCommand_byteOf (g : Group) : isCommand (byteOf g) = false := by
  revert g; decide

/-- A stream is the data bytes at its head, and what follows them. -/
theorem dataPrefix_append_afterData (bs : List Byte) : (dataPrefix bs).map byteOf ++ afterData bs = bs := by
  induction bs with
  | nil => rfl
  | cons b bs ih =>
    by_cases h : isCommand b
    · simp [dataPrefix, afterData, h]
    · simp only [Bool.not_eq_true] at h
      simp [dataPrefix, afterData, h, byteOf_groupOf, ih]

/-- What may follow a run of data bytes that is to be read as one span. -/
def StopsData (rest : List Byte) : Prop := ∀ e r, rest = e :: r → isCommand e = true

theorem dataPrefix_append (d : List Group) {rest : List Byte} (h : StopsData rest) :
    dataPrefix (d.map byteOf ++ rest) = d := by
  induction d with
  | nil =>
    cases rest with
    | nil => rfl
    | cons e r => simp [dataPrefix, h e r rfl]
  | cons g d ih => simp [dataPrefix, ih]

theorem afterData_append (d : List Group) {rest : List Byte} (h : StopsData rest) :
    afterData (d.map byteOf ++ rest) = rest := by
  induction d with
  | nil =>
    cases rest with
    | nil => rfl
    | cons e r => simp [afterData, h e r rfl]
  | cons g d ih => simp [afterData, ih]

theorem stopsData_nil : StopsData [] := by intro e r h; cases h

theorem stopsData_cons {e : Byte} (r : List Byte) (h : isCommand e = true) : StopsData (e :: r) := by
  intro e' r' h'; cases h'; exact h

theorem stopsData_afterData (bs : List Byte) : StopsData (afterData bs) := fun _ _ h => afterData_head h

/-! ## FindCmd -/

theorem firstCmd_eq (bs : List Byte) :
    firstCmd bs = if afterData bs = [] then none else some (dataPrefix bs).length := by
  induction bs with
  | nil => rfl
  | cons b bs ih =>
    by_cases h : isCommand b
    · simp [firstCmd, afterData, dataPrefix, h]
    · by_cases ha : afterData bs = [] <;> simp [firstCmd, afterData, dataPrefix, h, ih, ha]

theorem findCmd_none {bs : List Byte} {i : Nat} : findCmd bs i = none ↔ afterData (bs.drop i) = [] := by
  simp [findCmd, firstCmd_eq]

theorem findCmd_some {bs : List Byte} {i p : Nat} (h : findCmd bs i = some p) :
    i ≤ p ∧ p < bs.length ∧ bs.drop p = afterData (bs.drop i) ∧
      ∃ c rest, bs.drop p = c :: rest ∧ isCommand c = true := by
  simp only [findCmd, firstCmd_eq, Option.map_eq_some_iff] at h
  obtain ⟨q, hq, rfl⟩ := h
  split at hq
  · cases hq
  · rename_i hne
    cases hq
    have hd : bs.drop ((dataPrefix (bs.drop i)).length + i) = afterData (bs.drop i) := by
      rw [afterData_eq_drop, List.drop_drop, Nat.add_comm]
    obtain ⟨c, rest, hc⟩ := List.exists_cons_of_ne_nil hne
    have hlt : (dataPrefix (bs.drop i)).length + i < bs.length := by
      by_contra hge
      rw [List.drop_eq_nil_of_le (by omega)] at hd
      rw [hc] at hd; cases hd
    exact ⟨by omega, hlt, hd, c, rest, hd.trans hc, afterData_head hc⟩

/-! ## The meanings -/

theorem frameChannel_complete {c : Byte} {sp : Span} (s : State) (h : completeSpan c sp = true) :
    frameChannel c sp s = .next ((s.emit (.ch (channelMessage c sp.data))).advance s.lat.fin) := if_pos h

theorem frameChannel_incomplete {c : Byte} {sp : Span} (s : State) (h : completeSpan c sp = false) :
    frameChannel c sp s = .next (s.compact s.lat.s).finish := if_neg (by simp [h])

/-- Everything a meaning can do. -/
inductive Effect (s : State) : State → Prop where
  | channel (m : ChannelMessage) : Effect s ((s.emit (.ch m)).advance s.lat.fin)
  | sysex (sub : Group) (payload : List Group) : Effect s ((s.emit (.sx sub payload)).advance (s.lat.fin + 1))
  | retain : Effect s (s.compact s.lat.s).finish
  | skip : Effect s (s.raiseSkip.advance s.lat.fin)
  | empty : Effect s (s.advance (s.lat.fin + 1))
  | deliver (r : UnpackResult) : Effect s (s.deliver r)

theorem frameChannel_effect (c : Byte) (sp : Span) (s : State) : ∃ t, frameChannel c sp s = .next t ∧ Effect s t := by
  by_cases h : completeSpan c sp = true
  · exact ⟨_, frameChannel_complete s h, .channel _⟩
  · exact ⟨_, frameChannel_incomplete s (by simpa using h), .retain⟩

theorem frameSysex_effect (sub : Group) (p : List Group) (s : State) : ∃ t, frameSysex sub p s = .next t ∧ Effect s t :=
  ⟨_, rfl, .sysex sub p⟩

theorem execSysexStart_effect (f : SysexForm) (s : State) : ∃ t, execSysexStart f s = .next t ∧ Effect s t := by
  cases f with
  | unfinished d => exact ⟨_, rfl, .retain⟩
  | unterminated d => exact ⟨_, rfl, .skip⟩
  | empty => exact ⟨_, rfl, .empty⟩

/-- Every meaning answers a next state, one of the effects. -/
theorem exec_effect (i : Instr) (s : State) : ∃ t, exec i s = .next t ∧ Effect s t := by
  cases i with
  | unassigned8x ch sp => exact frameChannel_effect _ sp s
  | digitalUpdate ch sp => exact frameChannel_effect _ sp s
  | unassignedAx ch sp => exact frameChannel_effect _ sp s
  | unassignedBx ch sp => exact frameChannel_effect _ sp s
  | analogStreamToggle ch sp => exact frameChannel_effect _ sp s
  | digitalStreamToggle ch sp => exact frameChannel_effect _ sp s
  | analogUpdate ch sp => exact frameChannel_effect _ sp s
  | sysexStart f => exact execSysexStart_effect f s
  | unassignedF1 sp => exact frameChannel_effect _ sp s
  | unassignedF2 lo sp => exact frameChannel_effect _ sp s
  | setPinMode sp => exact frameChannel_effect _ sp s
  | setDigitalPin sp => exact frameChannel_effect _ sp s
  | unassignedF6 sp => exact frameChannel_effect _ sp s
  | sysexEnd sp => exact frameChannel_effect _ sp s
  | unassignedF8 sp => exact frameChannel_effect _ sp s
  | protocolVersion sp => exact frameChannel_effect _ sp s
  | unassignedFA lo sp => exact frameChannel_effect _ sp s
  | unassignedFC lo sp => exact frameChannel_effect _ sp s
  | unassignedFE sp => exact frameChannel_effect _ sp s
  | systemReset sp => exact frameChannel_effect _ sp s
  | sxClearDisplay p => exact frameSysex_effect _ p s
  | sxShowDisplay p => exact frameSysex_effect _ p s
  | sxPlotPixel p => exact frameSysex_effect _ p s
  | sxScrollString p => exact frameSysex_effect _ p s
  | sxScrollInteger p => exact frameSysex_effect _ p s
  | sxSetTouchMode p => exact frameSysex_effect _ p s
  | sxReportEvent p => exact frameSysex_effect _ p s
  | sxDebugString p => exact frameSysex_effect _ p s
  | sxReportFirmware p => exact frameSysex_effect _ p s
  | sxOther sub p => exact frameSysex_effect sub p s
  | u14 a b => exact ⟨_, rfl, .deliver _⟩
  | s14 a b => exact ⟨_, rfl, .deliver _⟩
  | u21 a b c => exact ⟨_, rfl, .deliver _⟩
  | u32 a b c d e => exact ⟨_, rfl, .deliver _⟩
  | s32 a b c d e => exact ⟨_, rfl, .deliver _⟩
  | pair gs => exact ⟨_, rfl, .deliver _⟩

/-! ## Requests, fetch, step -/

/-- Everything the acceptance of a request can do. -/
theorem accept_next {r : Request} {s t : State} (h : accept r s = .next t) :
    s.busy = false ∧
      ((r = .reset ∧ t = s.applyReset) ∨
       (∃ data, r = .process data ∧ s.initialised = true ∧ t = s.startProcess data) ∨
       (r = .readStatus ∧ t = s.answerStatus)) := by
  unfold accept at h
  split at h
  · cases h
  · rename_i hb
    refine ⟨by simpa using hb, ?_⟩
    cases r with
    | reset => cases h; exact .inl ⟨rfl, rfl⟩
    | process data =>
      simp only at h
      split at h
      · rename_i hi; cases h; exact .inr (.inl ⟨data, rfl, hi, rfl⟩)
      · cases h
    | readStatus => cases h; exact .inr (.inr ⟨rfl, rfl⟩)

theorem step_call {s : State} {c : UnpackCall} {cs : List UnpackCall} (h : s.calls = c :: cs) :
    step s = match decodeCall c.op c.lanes with
      | .ok i => exec i { s with calls := cs }
      | .error e => .refused (.unpackOperation e) := by
  simp only [step, State.fetch, h, fetchCall, decode]
  cases decodeCall c.op c.lanes <;> rfl

theorem step_busy {s : State} {bs : List Byte} (hc : s.calls = []) (hb : s.busy = true) (hv : s.bytes? = some bs) :
    step s = match findCmd bs s.cursor with
      | none => .next s.discard.finish
      | some p => match decodeStream (bs.drop p) with
        | .ok i => exec i (s.latch bs p)
        | .error e => .refused (.undecodable e) := by
  simp only [step, State.fetch, hc, hb, hv, fetchSegment, decode]
  cases findCmd bs s.cursor with
  | none => rfl
  | some p => simp only [if_true]; cases decodeStream (bs.drop p) <;> rfl

theorem step_idle {s : State} (hc : s.calls = []) (hb : s.busy = false) :
    step s = match s.requests with
      | [] => .next s
      | r :: rs => accept r { s with requests := rs } := by
  simp only [step, State.fetch, hc, hb]
  cases s.requests <;> rfl

/-- Everything a step that answers a next state can have done. -/
inductive Stepped (s : State) : State → Prop where
  /-- A call of the unpacker was served. -/
  | called (c : UnpackCall) (cs : List UnpackCall) (i : Instr) (t : State) (hc : s.calls = c :: cs)
      (hd : decodeCall c.op c.lanes = .ok i) (h : exec i { s with calls := cs } = .next t) : Stepped s t
  /-- No command byte was left. -/
  | emptied (bs : List Byte) (hc : s.calls = []) (hb : s.busy = true) (hv : s.bytes? = some bs)
      (hf : findCmd bs s.cursor = none) : Stepped s s.discard.finish
  /-- The segment at `p` was examined. -/
  | examined (bs : List Byte) (p : Nat) (i : Instr) (t : State) (hc : s.calls = []) (hb : s.busy = true)
      (hv : s.bytes? = some bs) (hf : findCmd bs s.cursor = some p) (hd : decodeStream (bs.drop p) = .ok i)
      (h : exec i (s.latch bs p) = .next t) : Stepped s t
  /-- A request was accepted. -/
  | accepted (r : Request) (rs : List Request) (t : State) (hc : s.calls = []) (hb : s.busy = false)
      (hr : s.requests = r :: rs) (h : accept r { s with requests := rs } = .next t) : Stepped s t
  /-- There was nothing to do. -/
  | waited (hc : s.calls = []) (hb : s.busy = false) (hr : s.requests = []) : Stepped s s

theorem step_next {s t : State} (h : step s = .next t) : Stepped s t := by
  cases hc : s.calls with
  | cons c cs =>
    rw [step_call hc] at h
    cases hd : decodeCall c.op c.lanes with
    | ok i => rw [hd] at h; exact .called c cs i t hc hd h
    | error e => rw [hd] at h; cases h
  | nil =>
    cases hb : s.busy with
    | true =>
      cases hv : s.bytes? with
      | none => simp [step, State.fetch, hc, hb, hv] at h
      | some bs =>
        rw [step_busy hc hb hv] at h
        cases hf : findCmd bs s.cursor with
        | none => rw [hf] at h; cases h; exact .emptied bs hc hb hv hf
        | some p =>
          rw [hf] at h
          cases hd : decodeStream (bs.drop p) with
          | ok i => simp only [hd] at h; exact .examined bs p i t hc hb hv hf hd h
          | error e => simp only [hd] at h; cases h
    | false =>
      rw [step_idle hc hb] at h
      cases hr : s.requests with
      | nil => rw [hr] at h; cases h; exact .waited hc hb hr
      | cons r rs => rw [hr] at h; exact .accepted r rs t hc hb hr h

/-! ## Runs -/

theorem run_of_next {M : Host.Core} {s t : M.State} (h : M.step s = .next t) (n : Nat) :
    M.run (n + 1) s = M.run n t := by
  simp only [Host.Core.run, h]

/-- A run that answers a state made a first step. -/
theorem run_succ_next {M : Host.Core} {n : Nat} {s u : M.State} (h : M.run (n + 1) s = .next u) :
    ∃ t, M.step s = .next t ∧ M.run n t = .next u := by
  simp only [Host.Core.run] at h
  split at h
  · exact ⟨_, ‹_›, h⟩
  · cases h
  · cases h

end Sys2Proof.Machine
end

