-- ==== Sys2Proof/Laws/Decode.lean ====
section
/-!
SUPPORT. What the decoder answers, said once per kind of bytes.
-/

namespace Sys2Proof.Machine

/-- The channel rows of the table cover the command bytes other than 0xF0 (R49). -/
theorem channelRows_cover : ∀ c : Byte, isCommand c = true → c ≠ 0xF0#8 →
    c &&& 0xF0#8 = 0x80#8 ∨ c &&& 0xF0#8 = 0x90#8 ∨ c &&& 0xF0#8 = 0xA0#8 ∨ c &&& 0xF0#8 = 0xB0#8 ∨ c &&& 0xF0#8 = 0xC0#8 ∨
    c &&& 0xF0#8 = 0xD0#8 ∨ c &&& 0xF0#8 = 0xE0#8 ∨ c = 0xF1#8 ∨ c &&& 0xFE#8 = 0xF2#8 ∨ c = 0xF4#8 ∨ c = 0xF5#8 ∨ c = 0xF6#8 ∨
    c = 0xF7#8 ∨ c = 0xF8#8 ∨ c = 0xF9#8 ∨ c &&& 0xFE#8 = 0xFA#8 ∨ c &&& 0xFE#8 = 0xFC#8 ∨ c = 0xFE#8 ∨ c = 0xFF#8 := by
  decide +kernel

/-- One row of the decoder's chain: it answers, or the rest of the chain does. -/
theorem row_cases {p : Prop} [Decidable p] {x y : Except DecodeError Instr} {i : Instr}
    (h : (if p then x else y) = .ok i) : p ∧ x = .ok i ∨ ¬p ∧ y = .ok i := by
  by_cases hp : p
  · rw [if_pos hp] at h; exact .inl ⟨hp, h⟩
  · rw [if_neg hp] at h; exact .inr ⟨hp, h⟩

/-- What the chain of channel rows answers: a row whose mask and match the byte meets. -/
theorem decodeChannel_rows {c : Byte} {sp : Span} {i : Instr} (h : decodeChannel c sp = .ok i) :
    c &&& 0xF0#8 = 0x80#8 ∧ i = .unassigned8x (c.setWidth 4) sp ∨
    c &&& 0xF0#8 = 0x90#8 ∧ i = .digitalUpdate (c.setWidth 4) sp ∨
    c &&& 0xF0#8 = 0xA0#8 ∧ i = .unassignedAx (c.setWidth 4) sp ∨
    c &&& 0xF0#8 = 0xB0#8 ∧ i = .unassignedBx (c.setWidth 4) sp ∨
    c &&& 0xF0#8 = 0xC0#8 ∧ i = .analogStreamToggle (c.setWidth 4) sp ∨
    c &&& 0xF0#8 = 0xD0#8 ∧ i = .digitalStreamToggle (c.setWidth 4) sp ∨
    c &&& 0xF0#8 = 0xE0#8 ∧ i = .analogUpdate (c.setWidth 4) sp ∨
    c = 0xF1#8 ∧ i = .unassignedF1 sp ∨
    c &&& 0xFE#8 = 0xF2#8 ∧ i = .unassignedF2 (c.setWidth 1) sp ∨
    c = 0xF4#8 ∧ i = .setPinMode sp ∨
    c = 0xF5#8 ∧ i = .setDigitalPin sp ∨
    c = 0xF6#8 ∧ i = .unassignedF6 sp ∨
    c = 0xF7#8 ∧ i = .sysexEnd sp ∨
    c = 0xF8#8 ∧ i = .unassignedF8 sp ∨
    c = 0xF9#8 ∧ i = .protocolVersion sp ∨
    c &&& 0xFE#8 = 0xFA#8 ∧ i = .unassignedFA (c.setWidth 1) sp ∨
    c &&& 0xFE#8 = 0xFC#8 ∧ i = .unassignedFC (c.setWidth 1) sp ∨
    c = 0xFE#8 ∧ i = .unassignedFE sp ∨
    c = 0xFF#8 ∧ i = .systemReset sp := by
  unfold decodeChannel at h
  iterate 19
    rcases row_cases h with ⟨hp, he⟩ | ⟨-, h⟩
    · cases he; simp only [hp, and_self, true_or, or_true]
    clear * - h
  cases h

/-- Every command byte but 0xF0 is in a row of the table (R49). -/
theorem decodeChannel_ok {c : Byte} (sp : Span) (hc : isCommand c = true) (h0 : c ≠ 0xF0#8) :
    ∃ i, decodeChannel c sp = .ok i := by
  have step {p : Prop} [Decidable p] {x : Instr} {y : Except DecodeError Instr}
      (h : ¬p → ∃ i, y = .ok i) : ∃ i, (if p then .ok x else y) = Except.ok (ε := DecodeError) i := by
    by_cases hp : p
    · exact ⟨x, if_pos hp⟩
    · obtain ⟨i, hi⟩ := h hp
      exact ⟨i, by rw [if_neg hp, hi]⟩
  unfold decodeChannel
  iterate 19 refine step fun _ => ?_
  exfalso
  rcases channelRows_cover c hc h0 with h | h | h | h | h | h | h | h | h | h | h | h | h | h | h | h | h | h | h <;>
    contradiction

/-- Every stream that begins with a command byte decodes (R50). -/
theorem decodeStream_ok {c : Byte} (rest : List Byte) (hc : isCommand c = true) :
    ∃ i, decodeStream (c :: rest) = .ok i := by
  rw [decodeStream, if_pos hc]
  by_cases h : c = 0xF0#8
  · exact ⟨_, if_pos h⟩
  · rw [if_neg h]; exact decodeChannel_ok _ hc h

theorem decodeStream_channel {c : Byte} (rest : List Byte) (hc : isCommand c = true) (h0 : c ≠ 0xF0#8) :
    decodeStream (c :: rest) = decodeChannel c ⟨dataPrefix rest, !(afterData rest).isEmpty⟩ := by
  rw [decodeStream, if_pos hc, if_neg h0]

theorem decodeStream_sysex (rest : List Byte) :
    decodeStream (0xF0#8 :: rest) = .ok (decodeSysex (dataPrefix rest) (afterData rest)) := rfl

/-- The subcommand rows are one thing to the framer (R110). -/
theorem exec_decodeSub (sub : Group) (p : List Group) (s : State) :
    exec (decodeSub sub p) s = frameSysex sub p s := by
  unfold decodeSub
  split_ifs <;> subst_vars <;> rfl

theorem nibble_append : ∀ (n : BitVec 4) (c : Byte), c &&& 0xF0#8 = n ++ 0x0#4 → n ++ c.setWidth 4 = c := by
  decide +kernel

theorem septet_append : ∀ (n : BitVec 7) (c : Byte), c &&& 0xFE#8 = n ++ 0x0#1 → n ++ c.setWidth 1 = c := by
  decide +kernel

/-- The channel rows are one thing to the framer (R80). -/
theorem exec_decodeChannel {c : Byte} {sp : Span} {i : Instr} (s : State) (hd : decodeChannel c sp = .ok i) :
    exec i s = frameChannel c sp s := by
  rcases decodeChannel_rows hd with ⟨h, rfl⟩ | ⟨h, rfl⟩ | ⟨h, rfl⟩ | ⟨h, rfl⟩ | ⟨h, rfl⟩ | ⟨h, rfl⟩ | ⟨h, rfl⟩ |
    ⟨h, rfl⟩ | ⟨h, rfl⟩ | ⟨h, rfl⟩ | ⟨h, rfl⟩ | ⟨h, rfl⟩ | ⟨h, rfl⟩ | ⟨h, rfl⟩ | ⟨h, rfl⟩ | ⟨h, rfl⟩ |
    ⟨h, rfl⟩ | ⟨h, rfl⟩ | ⟨h, rfl⟩
  · exact congrArg (frameChannel · sp s) (nibble_append 0x8 c h)
  · exact congrArg (frameChannel · sp s) (nibble_append 0x9 c h)
  · exact congrArg (frameChannel · sp s) (nibble_append 0xA c h)
  · exact congrArg (frameChannel · sp s) (nibble_append 0xB c h)
  · exact congrArg (frameChannel · sp s) (nibble_append 0xC c h)
  · exact congrArg (frameChannel · sp s) (nibble_append 0xD c h)
  · exact congrArg (frameChannel · sp s) (nibble_append 0xE c h)
  · subst h; rfl
  · exact congrArg (frameChannel · sp s) (septet_append 0b1111001 c h)
  · subst h; rfl
  · subst h; rfl
  · subst h; rfl
  · subst h; rfl
  · subst h; rfl
  · subst h; rfl
  · exact congrArg (frameChannel · sp s) (septet_append 0b1111101 c h)
  · exact congrArg (frameChannel · sp s) (septet_append 0b1111110 c h)
  · subst h; rfl
  · subst h; rfl

theorem decodeSub_ne_sysexStart (sub : Group) (p : List Group) (f : SysexForm) : decodeSub sub p ≠ .sysexStart f := by
  unfold decodeSub
  split_ifs <;> simp

/-- What the unpacker is called for is one of its operations (R122). -/
theorem decodeCall_isUnpack {op : BitVec 3} {lanes : List Byte} {i : Instr} (h : decodeCall op lanes = .ok i) :
    isUnpack i = true := by
  unfold decodeCall at h
  split at h
  · cases h; rfl
  split at h
  · cases h
  split at h <;> (repeat' split at h) <;> cases h <;> rfl

/-- An operation of the unpacker delivers one result, and that is all (R122). -/
theorem exec_isUnpack {i : Instr} {s t : State} (h : exec i s = .next t) (hu : isUnpack i = true) :
    ∃ r, t = s.deliver r := by
  cases i <;> first | exact absurd hu Bool.false_ne_true | exact ⟨_, (Host.Outcome.next.inj h).symm⟩

end Sys2Proof.Machine
end

