-- ==== Sys2Proof/Laws/Operands.lean ====
section
/-!
SUPPORT. The unpacker's formats as numbers, and small facts about `Need`.
-/

namespace Sys2Proof.Machine

/-- Or-ing a field in above `i` bits adds it (R123). -/
theorem or_shift_eq_add {a b i : Nat} (h : a < 2 ^ i) : a ||| b * 2 ^ i = a + 2 ^ i * b := by
  rw [Nat.mul_comm b, Nat.or_comm, ← Nat.two_pow_add_eq_or_of_lt h, Nat.add_comm]

theorem fieldP14_toNat (g0 g1 : Group) : (fieldP14 g0 g1).toNat = g0.toNat + 128 * g1.toNat := by
  have h0 := g0.isLt
  have h1 := g1.isLt
  simp only [fieldP14, BitVec.toNat_or, BitVec.toNat_shiftLeft, BitVec.toNat_setWidth, Nat.shiftLeft_eq]
  rw [Nat.mod_eq_of_lt (by omega : g0.toNat < 2 ^ 14), Nat.mod_eq_of_lt (by omega : g1.toNat < 2 ^ 14),
    Nat.mod_eq_of_lt (by omega : g1.toNat * 2 ^ 7 < 2 ^ 14), or_shift_eq_add (i := 7) (by omega)]
  norm_num

theorem fieldP14_toInt (g0 g1 : Group) :
    (fieldP14 g0 g1).toInt = if g0.toNat + 128 * g1.toNat > 8191 then (g0.toNat + 128 * g1.toNat : Int) - 16384
      else (g0.toNat + 128 * g1.toNat : Int) := by
  rw [BitVec.toInt_eq_toNat_cond, fieldP14_toNat]
  split <;> split <;> push_cast <;> omega

theorem fieldP21_toNat (g0 g1 g2 : Group) :
    (fieldP21 g0 g1 g2).toNat = g0.toNat + 128 * g1.toNat + 16384 * g2.toNat := by
  have h0 := g0.isLt
  have h1 := g1.isLt
  have h2 := g2.isLt
  simp only [fieldP21, BitVec.toNat_or, BitVec.toNat_shiftLeft, BitVec.toNat_setWidth, Nat.shiftLeft_eq]
  rw [Nat.mod_eq_of_lt (by omega : g0.toNat < 2 ^ 21), Nat.mod_eq_of_lt (by omega : g1.toNat < 2 ^ 21),
    Nat.mod_eq_of_lt (by omega : g2.toNat < 2 ^ 21), Nat.mod_eq_of_lt (by omega : g1.toNat * 2 ^ 7 < 2 ^ 21),
    Nat.mod_eq_of_lt (by omega : g2.toNat * 2 ^ 14 < 2 ^ 21), or_shift_eq_add (i := 7) (by omega),
    or_shift_eq_add (i := 14) (by omega)]
  norm_num

theorem fieldP32_toNat (g0 g1 g2 g3 g4 : Group) :
    (fieldP32 g0 g1 g2 g3 g4).toNat =
      (g0.toNat + 128 * g1.toNat + 16384 * g2.toNat + 2097152 * g3.toNat + 268435456 * g4.toNat) % 4294967296 := by
  have h0 := g0.isLt
  have h1 := g1.isLt
  have h2 := g2.isLt
  have h3 := g3.isLt
  have h4 := g4.isLt
  simp only [fieldP32, BitVec.toNat_or, BitVec.toNat_shiftLeft, BitVec.toNat_setWidth, Nat.shiftLeft_eq]
  rw [Nat.mod_eq_of_lt (by omega : g0.toNat < 2 ^ 35), Nat.mod_eq_of_lt (by omega : g1.toNat < 2 ^ 35),
    Nat.mod_eq_of_lt (by omega : g2.toNat < 2 ^ 35), Nat.mod_eq_of_lt (by omega : g3.toNat < 2 ^ 35),
    Nat.mod_eq_of_lt (by omega : g4.toNat < 2 ^ 35), Nat.mod_eq_of_lt (by omega : g1.toNat * 2 ^ 7 < 2 ^ 35),
    Nat.mod_eq_of_lt (by omega : g2.toNat * 2 ^ 14 < 2 ^ 35), Nat.mod_eq_of_lt (by omega : g3.toNat * 2 ^ 21 < 2 ^ 35),
    Nat.mod_eq_of_lt (by omega : g4.toNat * 2 ^ 28 < 2 ^ 35), or_shift_eq_add (i := 7) (by omega),
    or_shift_eq_add (i := 14) (by omega), or_shift_eq_add (i := 21) (by omega), or_shift_eq_add (i := 28) (by omega)]
  norm_num

theorem fieldP32_toInt (g0 g1 g2 g3 g4 : Group) :
    (fieldP32 g0 g1 g2 g3 g4).toInt =
      if 2147483648 ≤ (fieldP32 g0 g1 g2 g3 g4).toNat then ((fieldP32 g0 g1 g2 g3 g4).toNat : Int) - 4294967296
      else ((fieldP32 g0 g1 g2 g3 g4).toNat : Int) := by
  rw [BitVec.toInt_eq_toNat_cond]
  split <;> split <;> push_cast <;> omega

theorem need_le_two (c : Byte) : need c ≤ 2 := by unfold need; split_ifs <;> omega

theorem pairCodes_length : ∀ gs : List Group, (pairCodes gs).length = gs.length / 2
  | [] => rfl
  | [_] => by simp [pairCodes]
  | _ :: _ :: gs => by
    simp only [pairCodes, List.length_cons, pairCodes_length gs]
    omega

/-- The code at position `j` comes from the two groups at `2*j` (R129). -/
theorem pairCodes_getD : ∀ (gs : List Group) (j : Nat), j < gs.length / 2 →
    (pairCodes gs).getD j 0 = (gs.getD (2 * j) 0).toNat + 128 * (gs.getD (2 * j + 1) 0).toNat
  | [], j, h => by simp at h
  | [_], j, h => by simp at h
  | a :: b :: gs, 0, _ => by simp [pairCodes, fieldP14_toNat]
  | a :: b :: gs, j + 1, h => by
    have ih := pairCodes_getD gs j (by simp only [List.length_cons] at h; omega)
    rw [show 2 * (j + 1) = 2 * j + 1 + 1 by ring]
    simpa only [pairCodes, List.getD_cons_succ] using ih

end Sys2Proof.Machine
end

