-- ==== Sys2Proof/Laws/Buffer.lean ====
section
/-!
SUPPORT. The valid bytes of a sound state, and what each update of the buffer makes of them.
-/

namespace Sys2Proof.Machine

/-- The cells that hold a value are those below `count`: the state's buffer is that of its valid bytes. -/
theorem State.buffer_of_cells {s : State} (h : s.mem.map Prod.fst = List.range s.count) :
    s.bytes? = some s.valid ∧ s.mem = Memory.ofBytes s.valid ∧ s.valid.length = s.count := by
  obtain ⟨hm, hl⟩ := Memory.eq_ofBytes h
  have hb : s.bytes? = some (s.mem.map Prod.snd) := by
    have := Memory.readRun_ofBytes (s.mem.map Prod.snd)
    rwa [← hm, hl] at this
  have hv : s.valid = s.mem.map Prod.snd := by rw [State.valid, hb]; rfl
  exact ⟨hv ▸ hb, hv ▸ hm, hv ▸ hl⟩

theorem State.valid_of_ofBytes {s : State} {bs : List Byte} (hm : s.mem = Memory.ofBytes bs)
    (hc : s.count = bs.length) : s.bytes? = some bs ∧ s.valid = bs := by
  have hb : s.bytes? = some bs := by rw [State.bytes?, hm, hc]; simp
  exact ⟨hb, by rw [State.valid, hb]; rfl⟩

theorem State.cells_of_ofBytes {s : State} {bs : List Byte} (hm : s.mem = Memory.ofBytes bs)
    (hc : s.count = bs.length) : s.mem.map Prod.fst = List.range s.count := by
  rw [hm, hc]; simp

/-- What APPEND stores stands after the valid bytes (R26). -/
theorem State.append_buffer {s : State} (h : s.mem.map Prod.fst = List.range s.count) (data : List Byte) :
    (s.append data).mem = Memory.ofBytes (s.valid ++ data.take (s.room data.length)) ∧
      (s.append data).count = (s.valid ++ data.take (s.room data.length)).length := by
  obtain ⟨-, hm, hl⟩ := s.buffer_of_cells h
  constructor
  · rw [State.append_mem]
    conv_lhs => rw [hm, ← hl]
    simp
  · have : s.room data.length ≤ data.length := Nat.min_le_left _ _
    simp [hl, List.length_take, Nat.min_eq_left this]

/-- COMPACT keeps the valid bytes from its index on (R30). -/
theorem State.compact_buffer {s : State} (h : s.mem.map Prod.fst = List.range s.count) (i : Nat) :
    (s.compact i).mem = Memory.ofBytes (s.valid.drop i) ∧ (s.compact i).count = (s.valid.drop i).length := by
  obtain ⟨-, hm, hl⟩ := s.buffer_of_cells h
  constructor
  · rw [State.compact_mem]
    conv_lhs => rw [hm, ← hl]
    simp
  · simp [hl]

end Sys2Proof.Machine
end

