-- ==== Sys2Proof/Laws/Consumer.lean ====
section
/-!
SUPPORT. What the shared operations of the reference consumer do (44_consumer_contract.md).
-/

namespace Sys2Proof.Machine

/-- A digital-port update writes the pins of its bits and no other (R138). -/
theorem setPins_getElem (port : Nat) (v : BitVec 14) (bits : List Nat) (pins : Vector Bool 21) (pin : Nat)
    (hp : pin < 21) :
    (setPins port v bits pins)[pin] =
      if ∃ b ∈ bits, 8 * port + b = pin then v.getLsbD (pin - 8 * port) else pins[pin] := by
  induction bits generalizing pins with
  | nil => simp [setPins]
  | cons b bits ih =>
    rw [setPins, ih, Vector.getElem_setIfInBounds]
    by_cases h : ∃ x ∈ bits, 8 * port + x = pin
    · rw [if_pos h, if_pos (by obtain ⟨x, hx, e⟩ := h; exact ⟨x, List.mem_cons_of_mem _ hx, e⟩)]
    · rw [if_neg h]
      by_cases e : 8 * port + b = pin
      · rw [if_pos e, if_pos ⟨b, List.mem_cons_self, e⟩]
        subst e
        simp
      · rw [if_neg e, if_neg]
        rintro ⟨x, hx, ex⟩
        rcases List.mem_cons.1 hx with rfl | hx
        · exact e ex
        · exact h ⟨x, hx, ex⟩

@[simp] theorem receiveAll_nil (k : Consumer) : k.receiveAll [] = k := rfl

@[simp] theorem receiveAll_cons (k : Consumer) (m : Message) (ms : List Message) :
    k.receiveAll (m :: ms) = (k.receive m).receiveAll ms := rfl

theorem receiveAll_append (k : Consumer) (ms ns : List Message) :
    k.receiveAll (ms ++ ns) = (k.receiveAll ms).receiveAll ns := List.foldl_append ..

end Sys2Proof.Machine
end

