-- ==== Sys2Proof/Laws/Pass.lean ====
section
/-!
SUPPORT. What one pass of the loop does (R64 to R71), said once per case: the segment that is examined has a command byte, a
span and a tail, and the step is one of five.
-/

namespace Sys2Proof.Machine

/-- A pass that examines a segment: its command byte `c` at index `p` of the valid bytes `bs`, its data bytes `d`, and what
stands after them, which is empty or begins with a command byte. -/
structure Examines (s : State) (bs : List Byte) (p : Nat) (c : Byte) (d : List Group) (tail : List Byte) : Prop where
  calls : s.calls = []
  busy : s.busy = true
  bytes : s.bytes? = some bs
  found : findCmd bs s.cursor = some p
  shape : bs.drop p = c :: (d.map byteOf ++ tail)
  command : isCommand c = true
  stops : StopsData tail

/-- A pass that finds a command byte examines a segment. -/
theorem exists_examines {s : State} {bs : List Byte} {p : Nat} (hc : s.calls = []) (hb : s.busy = true)
    (hv : s.bytes? = some bs) (hf : findCmd bs s.cursor = some p) : ∃ c d tail, Examines s bs p c d tail := by
  obtain ⟨-, -, -, c, rest, hd, hcmd⟩ := findCmd_some hf
  exact ⟨c, dataPrefix rest, afterData rest, hc, hb, hv, hf, by rw [hd, dataPrefix_append_afterData], hcmd,
    stopsData_afterData rest⟩

namespace Examines

variable {s : State} {bs : List Byte} {p : Nat} {c : Byte} {d : List Group} {tail : List Byte}

theorem length (h : Examines s bs p c d tail) : bs.length = p + 1 + d.length + tail.length := by
  have := congrArg List.length h.shape
  have hp := (findCmd_some h.found).2.1
  simp at this
  omega

theorem cursor_le (h : Examines s bs p c d tail) : s.cursor ≤ p := (findCmd_some h.found).1

theorem drop_succ (h : Examines s bs p c d tail) : bs.drop (p + 1) = d.map byteOf ++ tail := by
  rw [← List.drop_drop, h.shape]; rfl

/-- What stands from `end` on is the tail. -/
theorem drop_fin (h : Examines s bs p c d tail) : bs.drop (p + 1 + d.length) = tail := by
  rw [← List.drop_drop, h.drop_succ, ← List.length_map (f := byteOf), List.drop_left]

/-- `end` is the index one past the span, whether the segment is closed or open (R66, R67). -/
theorem fin (h : Examines s bs p c d tail) : (latchesAt bs p).fin = p + 1 + d.length := by
  have hl := h.length
  cases tail with
  | nil =>
    have : findCmd bs (p + 1) = none := by rw [findCmd_none, h.drop_succ, afterData_append d h.stops]
    simp only [latchesAt, this]
    simpa using hl
  | cons e r =>
    have : findCmd bs (p + 1) = some (d.length + (p + 1)) := by
      simp [findCmd, firstCmd_eq, h.drop_succ, afterData_append d h.stops, dataPrefix_append d h.stops]
    simp only [latchesAt, this, Option.getD_some]
    omega

theorem decoded (h : Examines s bs p c d tail) :
    decodeStream (bs.drop p) =
      if c = 0xF0#8 then .ok (decodeSysex d tail) else decodeChannel c ⟨d, !tail.isEmpty⟩ := by
  rw [h.shape, decodeStream, if_pos h.command, dataPrefix_append d h.stops, afterData_append d h.stops]

theorem step_eq (h : Examines s bs p c d tail) {i : Instr} (hd : decodeStream (bs.drop p) = .ok i) :
    step s = exec i (s.latch bs p) := by
  rw [step_busy h.calls h.busy h.bytes, h.found]
  simp only [hd]

/-- A channel segment is framed (R80). -/
theorem step_channel (h : Examines s bs p c d tail) (h0 : c ≠ 0xF0#8) :
    step s = frameChannel c ⟨d, !tail.isEmpty⟩ (s.latch bs p) := by
  obtain ⟨i, hi⟩ := decodeChannel_ok ⟨d, !tail.isEmpty⟩ h.command h0
  rw [h.step_eq (by rw [h.decoded, if_neg h0, hi]), exec_decodeChannel _ hi]

/-- A complete channel segment: the message is emitted and the cursor moves past the span (R71). -/
theorem step_channel_complete (h : Examines s bs p c d tail) (h0 : c ≠ 0xF0#8)
    (hn : tail ≠ [] ∨ need c ≤ d.length) :
    step s = .next (((s.latch bs p).emit (.ch (channelMessage c d))).advance (p + 1 + d.length)) := by
  rw [h.step_channel h0, frameChannel_complete]
  · rw [State.latch_lat, h.fin]
  · rcases hn with hn | hn
    · cases tail with
      | nil => exact absurd rfl hn
      | cons => simp [completeSpan]
    · simp [completeSpan, hn]

/-- An open channel segment with too few data bytes: it is retained (R67, R68). -/
theorem step_channel_incomplete (h : Examines s bs p c d []) (h0 : c ≠ 0xF0#8) (hn : d.length < need c) :
    step s = .next ((s.latch bs p).compact p).finish := by
  rw [h.step_channel h0, frameChannel_incomplete _ (by simp [completeSpan]; omega)]
  rfl

/-- An open sysex: it is retained (R69). -/
theorem step_sysex_open (h : Examines s bs p 0xF0#8 d []) :
    step s = .next ((s.latch bs p).compact p).finish := by
  rw [h.step_eq (by rw [h.decoded, if_pos rfl])]
  rfl

/-- A sysex closed by another byte than 0xF7: it is skipped (R70). -/
theorem step_sysex_skip {e : Byte} {r : List Byte} (h : Examines s bs p 0xF0#8 d (e :: r)) (h7 : e ≠ 0xF7#8) :
    step s = .next ((s.latch bs p).raiseSkip.advance (p + 1 + d.length)) := by
  have hi : decodeSysex d (e :: r) = .sysexStart (.unterminated d) := if_neg h7
  rw [h.step_eq (by rw [h.decoded, if_pos rfl, hi]), ← h.fin]
  rfl

/-- An empty sysex: it is consumed (R106). -/
theorem step_sysex_empty {r : List Byte} (h : Examines s bs p 0xF0#8 [] (0xF7#8 :: r)) :
    step s = .next ((s.latch bs p).advance (p + 2)) := by
  rw [h.step_eq (i := .sysexStart .empty) (by rw [h.decoded, if_pos rfl]; rfl),
    show p + 2 = (latchesAt bs p).fin + 1 by rw [h.fin]; rfl]
  rfl

/-- A well-formed sysex: the message is emitted and the cursor moves past the 0xF7 (R71). -/
theorem step_sysex_message {sub : Group} {payload : List Group} {r : List Byte}
    (h : Examines s bs p 0xF0#8 (sub :: payload) (0xF7#8 :: r)) :
    step s = .next (((s.latch bs p).emit (.sx sub payload)).advance (p + payload.length + 3)) := by
  have hi : decodeSysex (sub :: payload) (0xF7#8 :: r) = decodeSub sub payload := rfl
  rw [h.step_eq (by rw [h.decoded, if_pos rfl, hi]), exec_decodeSub, frameSysex, State.latch_lat, h.fin]
  simp only [List.length_cons]
  congr 2
  omega

end Examines

end Sys2Proof.Machine
end

