-- ==== Sys2Proof/Laws/PerInstr.lean ====
section
/-!
SUPPORT. Facts about every instruction as syntax, one lemma per constructor.
-/

namespace Sys2Proof.Laws.EncodingStart

/-- An instruction's own bytes begin with a command byte (R42), or it is a call by one of the select codes 0 to 5
(R56). -/
def Statement (i : Instr) : Prop :=
  match encode i with
  | .stream bytes => ∃ c rest, bytes = c :: rest ∧ isCommand c = true
  | .call op _ => op.toNat < 6

theorem nibble_isCommand : ∀ (n ch : BitVec 4), n.getLsbD 3 = true → isCommand (n ++ ch) = true := by decide

theorem septet_isCommand : ∀ (n : BitVec 7) (low : BitVec 1), n.getLsbD 6 = true → isCommand (n ++ low) = true := by
  decide

theorem unassigned8x (chan : BitVec 4) (span : Span) : Statement (.unassigned8x chan span) := ⟨_, _, rfl, nibble_isCommand _ chan rfl⟩
theorem digitalUpdate (chan : BitVec 4) (span : Span) : Statement (.digitalUpdate chan span) := ⟨_, _, rfl, nibble_isCommand _ chan rfl⟩
theorem unassignedAx (chan : BitVec 4) (span : Span) : Statement (.unassignedAx chan span) := ⟨_, _, rfl, nibble_isCommand _ chan rfl⟩
theorem unassignedBx (chan : BitVec 4) (span : Span) : Statement (.unassignedBx chan span) := ⟨_, _, rfl, nibble_isCommand _ chan rfl⟩
theorem analogStreamToggle (chan : BitVec 4) (span : Span) : Statement (.analogStreamToggle chan span) := ⟨_, _, rfl, nibble_isCommand _ chan rfl⟩
theorem digitalStreamToggle (chan : BitVec 4) (span : Span) : Statement (.digitalStreamToggle chan span) := ⟨_, _, rfl, nibble_isCommand _ chan rfl⟩
theorem analogUpdate (chan : BitVec 4) (span : Span) : Statement (.analogUpdate chan span) := ⟨_, _, rfl, nibble_isCommand _ chan rfl⟩
theorem sysexStart (form : SysexForm) : Statement (.sysexStart form) := by
  cases form <;> exact ⟨_, _, rfl, rfl⟩
theorem unassignedF1 (span : Span) : Statement (.unassignedF1 span) := ⟨_, _, rfl, rfl⟩
theorem unassignedF2 (low : BitVec 1) (span : Span) : Statement (.unassignedF2 low span) := ⟨_, _, rfl, septet_isCommand _ low rfl⟩
theorem setPinMode (span : Span) : Statement (.setPinMode span) := ⟨_, _, rfl, rfl⟩
theorem setDigitalPin (span : Span) : Statement (.setDigitalPin span) := ⟨_, _, rfl, rfl⟩
theorem unassignedF6 (span : Span) : Statement (.unassignedF6 span) := ⟨_, _, rfl, rfl⟩
theorem sysexEnd (span : Span) : Statement (.sysexEnd span) := ⟨_, _, rfl, rfl⟩
theorem unassignedF8 (span : Span) : Statement (.unassignedF8 span) := ⟨_, _, rfl, rfl⟩
theorem protocolVersion (span : Span) : Statement (.protocolVersion span) := ⟨_, _, rfl, rfl⟩
theorem unassignedFA (low : BitVec 1) (span : Span) : Statement (.unassignedFA low span) := ⟨_, _, rfl, septet_isCommand _ low rfl⟩
theorem unassignedFC (low : BitVec 1) (span : Span) : Statement (.unassignedFC low span) := ⟨_, _, rfl, septet_isCommand _ low rfl⟩
theorem unassignedFE (span : Span) : Statement (.unassignedFE span) := ⟨_, _, rfl, rfl⟩
theorem systemReset (span : Span) : Statement (.systemReset span) := ⟨_, _, rfl, rfl⟩
theorem sxClearDisplay (payload : List Group) : Statement (.sxClearDisplay payload) := ⟨_, _, rfl, rfl⟩
theorem sxShowDisplay (payload : List Group) : Statement (.sxShowDisplay payload) := ⟨_, _, rfl, rfl⟩
theorem sxPlotPixel (payload : List Group) : Statement (.sxPlotPixel payload) := ⟨_, _, rfl, rfl⟩
theorem sxScrollString (payload : List Group) : Statement (.sxScrollString payload) := ⟨_, _, rfl, rfl⟩
theorem sxScrollInteger (payload : List Group) : Statement (.sxScrollInteger payload) := ⟨_, _, rfl, rfl⟩
theorem sxSetTouchMode (payload : List Group) : Statement (.sxSetTouchMode payload) := ⟨_, _, rfl, rfl⟩
theorem sxReportEvent (payload : List Group) : Statement (.sxReportEvent payload) := ⟨_, _, rfl, rfl⟩
theorem sxDebugString (payload : List Group) : Statement (.sxDebugString payload) := ⟨_, _, rfl, rfl⟩
theorem sxReportFirmware (payload : List Group) : Statement (.sxReportFirmware payload) := ⟨_, _, rfl, rfl⟩
theorem sxOther (sub : Group) (payload : List Group) : Statement (.sxOther sub payload) := ⟨_, _, rfl, rfl⟩
theorem u14 (g0 g1 : Group) : Statement (.u14 g0 g1) := by simp [Statement, encode]
theorem s14 (g0 g1 : Group) : Statement (.s14 g0 g1) := by simp [Statement, encode]
theorem u21 (g0 g1 g2 : Group) : Statement (.u21 g0 g1 g2) := by simp [Statement, encode]
theorem u32 (g0 g1 g2 g3 g4 : Group) : Statement (.u32 g0 g1 g2 g3 g4) := by simp [Statement, encode]
theorem s32 (g0 g1 g2 g3 g4 : Group) : Statement (.s32 g0 g1 g2 g3 g4) := by simp [Statement, encode]
theorem pair (groups : List Group) : Statement (.pair groups) := by simp [Statement, encode]

end Sys2Proof.Laws.EncodingStart
end

