-- ==== Sys2Proof/Laws/Segment.lean ====
section
/-!
SUPPORT. The segment view (R74) computed from the head of a stream: leading data bytes, then one segment at a time.
-/

namespace Sys2Proof.Machine

theorem splitStream_data (d : List Group) (bs : List Byte) :
    splitStream (d.map byteOf ++ bs) = (d ++ (splitStream bs).1, (splitStream bs).2) := by
  induction d with
  | nil => rfl
  | cons g d ih => simp [splitStream, ih]

theorem splitStream_stops {bs : List Byte} (h : StopsData bs) : (splitStream bs).1 = [] := by
  cases bs with
  | nil => rfl
  | cons b bs => simp [splitStream, h b bs rfl]

/-- The first segment of a stream that begins with a command byte, and the rest. -/
theorem splitStream_command {c : Byte} (hc : isCommand c = true) (d : List Group) {tail : List Byte}
    (h : StopsData tail) :
    splitStream (c :: (d.map byteOf ++ tail)) = ([], ⟨c, d⟩ :: (splitStream tail).2) := by
  simp [splitStream, hc, splitStream_data, splitStream_stops h]

/-- Leading data bytes belong to no message (R79). -/
theorem segmentView_data (d : List Group) (bs : List Byte) : segmentView (d.map byteOf ++ bs) = segmentView bs := by
  simp [segmentView, splitStream_data]

theorem segmentView_command {c : Byte} (hc : isCommand c = true) (d : List Group) {tail : List Byte}
    (h : StopsData tail) :
    segmentView (c :: (d.map byteOf ++ tail)) = viewSegments (⟨c, d⟩ :: (splitStream tail).2) := by
  rw [segmentView, splitStream_command hc d h]

end Sys2Proof.Machine
end

