-- ==== Sys2Proof/Laws/System.lean ====
section
/-!
SUPPORT. What a step of the block hands to its sink, and what a step of the block with its sink is.
-/

namespace Sys2Proof.Machine

theorem emittedBy_append {s t : State} {es : List EmitEvent} (h : t.emits = s.emits ++ es) :
    emittedBy s t = es.map EmitEvent.msg := by
  rw [emittedBy, h, List.drop_left]

/-- A step of the block emits at most one message, under the transaction that runs (R71, R72). -/
theorem step_emits {s t : State} (h : step s = .next t) :
    t.emits = s.emits ∨ ∃ m, t.emits = s.emits ++ [⟨s.txn, m⟩] := by
  cases step_next h with
  | called c cs i _ _ hd h =>
    obtain ⟨r, rfl⟩ := exec_isUnpack h (decodeCall_isUnpack hd)
    exact .inl rfl
  | emptied => exact .inl rfl
  | examined bs p i _ _ _ _ _ _ h =>
    obtain ⟨t', ht, he⟩ := exec_effect i (s.latch bs p)
    obtain rfl := Host.Outcome.next.inj (ht.symm.trans h)
    cases he with
    | channel m => exact .inr ⟨.ch m, rfl⟩
    | sysex sub payload => exact .inr ⟨.sx sub payload, rfl⟩
    | retain | skip | empty | deliver => exact .inl rfl
  | accepted r rs _ _ _ _ h =>
    obtain ⟨-, h⟩ := accept_next h
    rcases h with ⟨-, rfl⟩ | ⟨data, -, -, rfl⟩ | ⟨-, rfl⟩
    · exact .inl rfl
    · unfold State.startProcess
      split <;> exact .inl rfl
    · exact .inl rfl
  | waited => exact .inl rfl

/-- A step of the block with its sink is a step of the block, and the sink takes what it emitted. -/
theorem system_step_next {κ : Type} {take : κ → Message → κ} {y y' : System κ} :
    y.step take = .next y' ↔
      ∃ t, step y.block = .next t ∧ y' = ⟨t, (emittedBy y.block t).foldl take y.sink⟩ := by
  unfold System.step
  cases step y.block with
  | next t => simp [eq_comm]
  | fault => simp
  | refused => simp

end Sys2Proof.Machine
end

