-- ==== Sys2Proof/Tests/Slice0.lean ====
section
/-!
SUPPORT. The model's own tests. Expected results come from the spec: the encoding tables of 30_encoding.md, 42_sysex.md and
43_unpacker.md for the words, the vectors of 95_test_vectors.md (S, V, W) and the rules themselves for the steps. At the
end, one witness for every obligation that has hypotheses.
-/

namespace Sys2Proof.Tests

open Sys2Proof Sys2Proof.Machine

/-! ## Helpers -/

/-- An idle block that holds these bytes. -/
def held (cap : Nat) (bytes : List Byte) : State :=
  { State.resetOf cap with mem := Memory.ofBytes bytes, count := bytes.length }

/-- A block in the scan phase of a PROCESS over these bytes, the cursor at 0. -/
def running (cap : Nat) (bytes : List Byte) : State := { held cap bytes with busy := true }

/-- An idle block that holds these bytes and is asked for these transactions. -/
def asked (cap : Nat) (bytes : List Byte) (rs : List Request) : State := { held cap bytes with requests := rs }

/-- An idle block of which this call of the unpacker is made. -/
def calling (op : BitVec 3) (lanes : List Byte) : State := { State.resetOf 64 with calls := [⟨op, lanes⟩] }

def nextOf : Host.Outcome State Fault Refusal → Option State
  | .next t => some t
  | _ => none

def refusalOf : Host.Outcome State Fault Refusal → Option Refusal
  | .refused r => some r
  | _ => none

/-- What one pass emits, where it leaves the cursor, and how many bytes it leaves. -/
def pass (bytes : List Byte) : Option (List Message × Nat × Nat) :=
  (nextOf (step (running 64 bytes))).map fun t => (t.emits.map EmitEvent.msg, t.cursor, t.count)

/-- What one call of the unpacker gives. -/
def unpacked (op : BitVec 3) (lanes : List Byte) : Option (List UnpackResult) :=
  (nextOf (step (calling op lanes))).map State.results

def ch (cmd : Byte) (cls : MsgClass) (chan : BitVec 4) (nargs : BitVec 2) (arg1 arg2 : Group) : Message :=
  .ch { cmd := cmd, cls := cls, chan := chan, nargs := nargs, arg1 := arg1, arg2 := arg2 }

/-! ## Well-formedness -/

theorem test_wf_refuses_a_named_subcommand_as_other : (Instr.sxOther 0x01#7 []).wf = false := by decide

theorem test_wf_accepts_an_unnamed_subcommand : (Instr.sxOther 0x07#7 []).wf = true := by decide

/-- R109: with `CAP = 4` a payload of two bytes is too long, one byte is not. -/
theorem test_fits_refuses_a_long_sysex :
    (Instr.sxShowDisplay [1, 2]).fits 4 = false ∧ (Instr.sxShowDisplay [1]).fits 4 = true := by decide

/-! ## Decoding: words written out from R49, R51 and R56 -/

theorem test_decode_nibble_rows :
    decodeStream [0b10000000] = .ok (.unassigned8x 0 ⟨[], false⟩) ∧
    decodeStream [0b10011010, 0b00000101, 0b10010000] = .ok (.digitalUpdate 0b1010 ⟨[0b0000101], true⟩) ∧
    decodeStream [0b10101111] = .ok (.unassignedAx 0b1111 ⟨[], false⟩) ∧
    decodeStream [0b10110001] = .ok (.unassignedBx 0b0001 ⟨[], false⟩) ∧
    decodeStream [0b11000011, 0b00000001] = .ok (.analogStreamToggle 0b0011 ⟨[0b0000001], false⟩) ∧
    decodeStream [0b11010010, 0b01111111] = .ok (.digitalStreamToggle 0b0010 ⟨[0b1111111], false⟩) ∧
    decodeStream [0b11100100, 0b00000001, 0b01000000] = .ok (.analogUpdate 0b0100 ⟨[0b0000001, 0b1000000], false⟩) := by
  decide

theorem test_decode_system_rows :
    decodeStream [0b11110001] = .ok (.unassignedF1 ⟨[], false⟩) ∧
    decodeStream [0b11110010] = .ok (.unassignedF2 0 ⟨[], false⟩) ∧
    decodeStream [0b11110011] = .ok (.unassignedF2 1 ⟨[], false⟩) ∧
    decodeStream [0b11110100, 0b00001101, 0b00000001] = .ok (.setPinMode ⟨[13, 1], false⟩) ∧
    decodeStream [0b11110101, 0b00001101, 0b00000001] = .ok (.setDigitalPin ⟨[13, 1], false⟩) ∧
    decodeStream [0b11110110] = .ok (.unassignedF6 ⟨[], false⟩) ∧
    decodeStream [0b11110111, 0b11111001] = .ok (.sysexEnd ⟨[], true⟩) ∧
    decodeStream [0b11111000] = .ok (.unassignedF8 ⟨[], false⟩) ∧
    decodeStream [0b11111001, 0b00000010, 0b00000101] = .ok (.protocolVersion ⟨[2, 5], false⟩) ∧
    decodeStream [0b11111010] = .ok (.unassignedFA 0 ⟨[], false⟩) ∧
    decodeStream [0b11111011] = .ok (.unassignedFA 1 ⟨[], false⟩) ∧
    decodeStream [0b11111100] = .ok (.unassignedFC 0 ⟨[], false⟩) ∧
    decodeStream [0b11111101] = .ok (.unassignedFC 1 ⟨[], false⟩) ∧
    decodeStream [0b11111110] = .ok (.unassignedFE ⟨[], false⟩) ∧
    decodeStream [0b11111111] = .ok (.systemReset ⟨[], false⟩) := by
  decide

theorem test_decode_sysex_rows :
    decodeStream [0b11110000, 0b00000001, 0b11110111] = .ok (.sxClearDisplay []) ∧
    decodeStream [0b11110000, 0b00000010, 0b11110111] = .ok (.sxShowDisplay []) ∧
    decodeStream [0b11110000, 0b00000011, 0b00000100, 0b11110111] = .ok (.sxPlotPixel [4]) ∧
    decodeStream [0b11110000, 0b00000100, 0b11110111] = .ok (.sxScrollString []) ∧
    decodeStream [0b11110000, 0b00000101, 0b11110111] = .ok (.sxScrollInteger []) ∧
    decodeStream [0b11110000, 0b00000110, 0b11110111] = .ok (.sxSetTouchMode []) ∧
    decodeStream [0b11110000, 0b00001101, 0b11110111] = .ok (.sxReportEvent []) ∧
    decodeStream [0b11110000, 0b00001110, 0b01000001, 0b11110111] = .ok (.sxDebugString [0b1000001]) ∧
    decodeStream [0b11110000, 0b01111001, 0b11110111] = .ok (.sxReportFirmware []) ∧
    decodeStream [0b11110000, 0b00000000, 0b11110111] = .ok (.sxOther 0 []) ∧
    decodeStream [0b11110000, 0b01111111, 0b11110111] = .ok (.sxOther 0b1111111 []) := by
  decide

theorem test_decode_sysex_start :
    decodeStream [0b11110000, 0b00001101] = .ok (.sysexStart (.unfinished [0b0001101])) ∧
    decodeStream [0b11110000, 0b00001101, 0b11110000] = .ok (.sysexStart (.unterminated [0b0001101])) ∧
    decodeStream [0b11110000, 0b11110111] = .ok (.sysexStart .empty) := by
  decide

theorem test_decode_unpacker_calls :
    decodeCall 0b000 [0b00000101, 0b10000001] = .ok (.u14 5 1) ∧
    decodeCall 0b001 [1, 2] = .ok (.s14 1 2) ∧
    decodeCall 0b010 [1, 2, 3] = .ok (.u21 1 2 3) ∧
    decodeCall 0b011 [1, 2, 3, 4, 5] = .ok (.u32 1 2 3 4 5) ∧
    decodeCall 0b100 [1, 2, 3, 4, 5] = .ok (.s32 1 2 3 4 5) ∧
    decodeCall 0b101 [1, 2, 3] = .ok (.pair [1, 2, 3]) := by
  decide

theorem test_decode_refuses :
    decodeStream [] = .error .noByte ∧ decodeStream [0b01111111] = .error (.dataByte 0x7F#8) ∧
    decodeCall 0b110 [1, 2] = .error (.selectCode 6) ∧ decodeCall 0b111 [] = .error (.selectCode 7) ∧
    decodeCall 0b000 [1] = .error (.groupCount 0 1) := by
  decide

theorem test_encode_spells_the_message :
    encode (.sxReportEvent [1, 0, 0, 1, 0, 0]) = .stream [0xF0, 0x0D, 1, 0, 0, 1, 0, 0, 0xF7] ∧
    encode (.analogUpdate 3 ⟨[0, 0x40], true⟩) = .stream [0xE3, 0, 0x40] ∧
    encode (.s14 1 0x40) = .call 1 [1, 0x40] := by
  decide

/-! ## Words of the opcode table -/

theorem test_table_words :
    decodeTableWord 8 0x95 = some (.digitalUpdate 5 ⟨[0, 0], false⟩) ∧
    decodeTableWord 8 0xF0 = some (.sysexStart (.unfinished [0, 0])) ∧
    decodeTableWord 16 0xF079 = some (.sxReportFirmware []) ∧
    decodeTableWord 16 0xF000 = some (.sxOther 0 []) ∧
    decodeTableWord 8 4 = some (.s32 0 0 0 0 0) ∧
    decodeTableWord 8 6 = none := by
  decide

theorem test_table_word_runs_first :
    (nextOf (step (State.reset.withFetchWord 8 0xF9))).map (fun t => t.emits.map EmitEvent.msg) =
      some [ch 0xF9#8 .protocolVersion 9 2 0 0] ∧
    (nextOf (step (State.reset.withFetchWord 16 0xF00E))).map (fun t => t.emits.map EmitEvent.msg) =
      some [.sx 0x0E#7 []] ∧
    (nextOf (step (State.reset.withFetchWord 8 1))).map State.results = some [.int 0] := by
  decide

/-! ## One pass of the loop, per row -/

/-- R81, V27. -/
theorem test_unassigned8x : pass [0x80, 0x81] = some ([ch 0x80#8 .other 0 0 0 0], 1, 2) := by decide

/-- V2. -/
theorem test_digitalUpdate : pass [0x90, 0x05, 0x00] = some ([ch 0x90#8 .digitalUpdate 0 2 5 0], 3, 3) := by decide

/-- V13. -/
theorem test_digitalUpdate_truncated : pass [0x90, 0xE0, 0x01, 0x40] = some ([ch 0x90#8 .digitalUpdate 0 0 0 0], 1, 4) := by decide

/-- R83. -/
theorem test_unassignedAx : pass [0xA7, 0x01, 0x02, 0x03] = some ([ch 0xA7#8 .other 7 2 1 2], 4, 4) := by decide

/-- R84. -/
theorem test_unassignedBx : pass [0xBF, 0x7F, 0x7F] = some ([ch 0xBF#8 .other 15 2 0x7F 0x7F], 3, 3) := by decide

/-- V6. -/
theorem test_analogStreamToggle : pass [0xC0, 0x01, 0x02] = some ([ch 0xC0#8 .streamToggle 0 1 1 0], 3, 3) := by decide

/-- V26. -/
theorem test_digitalStreamToggle : pass [0xD2, 0x00] = some ([ch 0xD2#8 .streamToggle 2 1 0 0], 2, 2) := by decide

/-- V26. -/
theorem test_digitalStreamToggle_open : pass [0x05, 0xD2] = some ([], 0, 1) := by decide

/-- V1. -/
theorem test_analogUpdate : pass [0xE0, 0x01, 0x40] = some ([ch 0xE0#8 .analogUpdate 0 2 1 0x40], 3, 3) := by decide

/-- V4. -/
theorem test_analogUpdate_open : pass [0x01, 0x02, 0xE0] = some ([], 0, 1) := by decide

/-- R88. -/
theorem test_unassignedF1 : pass [0xF1, 0x01, 0xF1] = some ([ch 0xF1#8 .other 1 1 1 0], 2, 3) := by decide

/-- R89. -/
theorem test_unassignedF2 : pass [0xF3, 0x01, 0x02] = some ([ch 0xF3#8 .other 3 2 1 2], 3, 3) := by decide

/-- R90. -/
theorem test_setPinMode : pass [0xF4, 0x0D, 0x0B] = some ([ch 0xF4#8 .pinMode 4 2 0x0D 0x0B], 3, 3) := by decide

/-- R91. -/
theorem test_setDigitalPin : pass [0xF5, 0x0D, 0x01] = some ([ch 0xF5#8 .other 5 2 0x0D 1], 3, 3) := by decide

/-- R92. -/
theorem test_unassignedF6 : pass [0xF6, 0x01, 0x02] = some ([ch 0xF6#8 .other 6 2 1 2], 3, 3) := by decide

/-- V11. -/
theorem test_sysexEnd : pass [0xF7, 0xF9, 0x02, 0x05] = some ([ch 0xF7#8 .other 7 0 0 0], 1, 4) := by decide

/-- V10. -/
theorem test_sysexEnd_open : pass [0xF7] = some ([], 0, 1) := by decide

/-- R94. -/
theorem test_unassignedF8 : pass [0xF8, 0x01, 0x02] = some ([ch 0xF8#8 .other 8 2 1 2], 3, 3) := by decide

/-- R95. -/
theorem test_protocolVersion : pass [0xF9, 0x02, 0x05] = some ([ch 0xF9#8 .protocolVersion 9 2 2 5], 3, 3) := by decide

/-- R96. -/
theorem test_unassignedFA : pass [0xFB, 0x01, 0x02] = some ([ch 0xFB#8 .other 11 2 1 2], 3, 3) := by decide

/-- R97. -/
theorem test_unassignedFC : pass [0xFC, 0x01, 0x02] = some ([ch 0xFC#8 .other 12 2 1 2], 3, 3) := by decide

/-- V22. -/
theorem test_unassignedFE : pass [0xFE, 0xFF] = some ([ch 0xFE#8 .other 14 0 0 0], 1, 2) := by decide

/-- V9. -/
theorem test_systemReset : pass [0xFF, 0x05, 0x06] = some ([ch 0xFF#8 .reset 15 0 0 0], 3, 3) := by decide

/-- V36. -/
theorem test_sxClearDisplay : pass [0xF0, 0x01, 0xF7, 0x05] = some ([.sx 0x01#7 []], 3, 4) := by decide

/-- R112. -/
theorem test_sxShowDisplay : pass [0xF0, 0x02, 0x11, 0xF7] = some ([.sx 0x02#7 [0x11]], 4, 4) := by decide

/-- R113. -/
theorem test_sxPlotPixel : pass [0xF0, 0x03, 0x01, 0x02, 0xF7] = some ([.sx 0x03#7 [1, 2]], 5, 5) := by decide

/-- R114. -/
theorem test_sxScrollString : pass [0xF0, 0x04, 0x6D, 0x00, 0xF7] = some ([.sx 0x04#7 [0x6D, 0]], 5, 5) := by decide

/-- R115. -/
theorem test_sxScrollInteger : pass [0xF0, 0x05, 0x7F, 0xF7] = some ([.sx 0x05#7 [0x7F]], 4, 4) := by decide

/-- R116. -/
theorem test_sxSetTouchMode : pass [0xF0, 0x06, 0x01, 0xF7] = some ([.sx 0x06#7 [1]], 4, 4) := by decide

/-- V17. -/
theorem test_sxReportEvent : pass [0xF0, 0x0D, 1, 0, 0, 1, 0, 0, 0xF7] = some ([.sx 0x0D#7 [1, 0, 0, 1, 0, 0]], 9, 9) := by decide

/-- V16. -/
theorem test_sxDebugString : pass [0x22, 0xF0, 0x0E, 0x41, 0xF7] = some ([.sx 0x0E#7 [0x41]], 5, 5) := by decide

/-- P1. -/
theorem test_sxReportFirmware : pass [0xF0, 0x79, 2, 3, 0x6D, 0, 0x62, 0, 0xF7] = some ([.sx 0x79#7 [2, 3, 0x6D, 0, 0x62, 0]], 9, 9) := by decide

/-- R120. -/
theorem test_sxOther : pass [0xF0, 0x55, 0x01, 0xF7, 0xF7] = some ([.sx 0x55#7 [1]], 4, 5) := by decide

/-- V15. -/
theorem test_sysexStart_empty : pass [0xF0, 0xF7] = some ([], 2, 2) := by decide

/-- V3. -/
theorem test_no_command_byte : pass [0x01, 0x02, 0x03] = some ([], 0, 0) := by decide

/-- V16: a sysex closed by another byte than 0xF7 raises `SKIP` and moves to it. -/
theorem test_sysexStart_skip :
    (nextOf (step (running 64 [0xF0, 0x0E, 0xF0, 0x41, 0xF7]))).map (fun t => (t.skip, t.cursor, t.emits)) =
      some (true, 2, []) := by decide

/-! ## The unpacker (vectors W) -/

/-- W9, W3. -/
theorem test_u14 : unpacked 0 [0x7F, 0x7F] = some [.int 16383] ∧ unpacked 0 [0x00, 0x01] = some [.int 128] := by decide

/-- W11, W10. -/
theorem test_s14 : unpacked 1 [0x00, 0x40] = some [.int (-8192)] ∧ unpacked 1 [0x7F, 0x3F] = some [.int 8191] := by decide

/-- W22, W21. -/
theorem test_u21 : unpacked 2 [0x7F, 0x00, 0x7F] = some [.int 2080895] ∧ unpacked 2 [0x15, 0x4E, 0x01] = some [.int 26389] := by decide

/-- W33, W30. -/
theorem test_u32 : unpacked 3 [0, 0, 0, 0, 0x78] = some [.int 2147483648] ∧
    unpacked 3 [0x15, 0x1A, 0x6F, 0x3A, 0] = some [.int 123456789] := by decide

/-- W46, W40. -/
theorem test_s32 : unpacked 4 [0x6B, 0x65, 0x10, 0x45, 0x7F] = some [.int (-123456789)] ∧
    unpacked 4 [0, 0, 0, 0, 0x08] = some [.int (-2147483648)] := by decide

/-- W51, W52. -/
theorem test_pair : unpacked 5 [0x6D, 0x00, 0x62] = some [.codes [109]] ∧ unpacked 5 [0x29, 0x41] = some [.codes [8361]] := by decide

/-! ## Transactions -/

/-- R26's example: `CAP = 8`, `count = 6`, four bytes of which two fit. -/
theorem test_append_drops_the_excess :
    (nextOf (accept (.process [5, 6, 7, 0xF7]) (held 8 [0xF0, 0x0E, 1, 2, 3, 4]))).map
      (fun t => (t.valid, t.count, t.ovf, t.busy)) = some ([0xF0, 0x0E, 1, 2, 3, 4, 5, 6], 8, true, true) := by decide

/-- R26: a buffer filled exactly sets no flag. -/
theorem test_append_fills_exactly :
    (nextOf (accept (.process [5, 6]) (held 8 [0xF0, 0x0E, 1, 2, 3, 4]))).map (fun t => (t.count, t.ovf)) =
      some (8, false) := by decide

/-- R30's example. -/
theorem test_compact : ((held 8 [0x90, 5, 0, 0xE0, 1]).compact 3).valid = [0xE0, 1] := by decide

/-- R28's example. -/
theorem test_findCmd :
    findCmd [1, 2, 0xE0, 5] 0 = some 2 ∧ findCmd [1, 2, 0xE0, 5] 3 = none ∧ findCmd [1, 2, 0xE0, 5] 4 = none := by decide

/-- V34: RESET out of the wedge. -/
theorem test_reset_empties :
    (nextOf (step { asked 8 [0xF0, 0x0E, 1, 2, 3, 4, 5, 6] [.reset] with ovf := true })).map
      (fun t => (t.count, t.ovf, t.skip, t.mem)) = some (0, false, false, []) := by decide

/-- R17: `CAP = 8`, so `W = 4`; count 6 with `OVF` set. -/
theorem test_statusWord : ({ held 8 [0xF0, 0x0E, 1, 2, 3, 4] with ovf := true }).statusWord.toNat = 6 + 16 := by decide

/-- V31 and V30: the segment view of a buffer. -/
theorem test_segmentView :
    segmentView [0xE0, 1, 2, 0xF0, 0x0E, 0xF0, 1, 0xF7, 5, 0xC1] =
      ⟨[ch 0xE0#8 .analogUpdate 0 2 1 2, .sx 0x01#7 []], [0xC1], true⟩ := by decide

/-! ## The reference consumer -/

def consumer : Consumer :=
  (((Consumer.start (Vector.replicate 21 false) (Vector.replicate 16 0)).registerEvent 1).registerEvent 2).registerUpdate 7

/-- S4. -/
theorem test_consumer_digital :
    ((consumer.receive (ch 0x90#8 .digitalUpdate 0 2 5 0)).digitalInput.toList.take 8) =
      [true, false, true, false, false, false, false, false] := by decide

/-- S5. -/
theorem test_consumer_analog :
    (consumer.receive (ch 0xE0#8 .analogUpdate 0 2 1 0x40)).analogChannel.toList.head? = some (-8191) ∧
    (consumer.receive (ch 0xE0#8 .analogUpdate 0 2 1 0x40)).calls = [.update 7] := by decide

/-- S6. -/
theorem test_consumer_event :
    (consumer.receive (.sx 0x0D#7 [1, 0, 0, 1, 0, 0])).calls = [.event 1 1 1, .event 2 1 1] := by decide

/-- P1: `mb 2.3`, with the name as the codes that PAIR gives. -/
theorem test_consumer_firmware :
    (consumer.receive (.sx 0x79#7 [2, 3, 0x6D, 0, 0x62, 0])).firmwareVersion =
      [.code 109, .code 98, .char ' ', .char '2', .char '.', .char '3'] := by decide

/-- R118's example, its payload read as PAIR (R143). -/
theorem test_consumer_debug :
    (consumer.receive (.sx 0x0E#7 [0x48, 0, 0x69, 0])).shown = [[.code 0x48, .code 0x69]] := by decide

/-- R147: no deduplication, and order of registration. -/
theorem test_consumer_registration : (consumer.registerEvent 1).eventListeners = [1, 2, 1] := by decide

def sinkAfter {κ : Type} : Host.Outcome (System κ) Fault Refusal → Option κ
  | .next y => some y.sink
  | _ => none

/-- S5 from the bytes on: the pass that frames the message has changed the channel and called the listener. -/
theorem test_system_analog :
    (sinkAfter (referenceStep ⟨running 64 [0xE0, 0x01, 0x40], consumer⟩)).map
      (fun k => (k.analogChannel.toList.head?, k.calls)) = some (some (-8191), [.update 7]) := by decide

/-- R5: another sink, one that counts what it is given. -/
theorem test_system_any_sink :
    sinkAfter (System.step (fun n _ => n + 1) ⟨running 64 [0xFF], 0⟩) = some 1 ∧
    sinkAfter (System.step (fun n _ => n + 1) ⟨running 64 [0x90], 0⟩) = some 0 := by decide

/-! ## Witnesses: the hypotheses of every obligation are met together -/

theorem inv_held {cap : Nat} {bytes : List Byte} (h3 : 3 ≤ cap) (hl : bytes.length ≤ cap)
    (hk : (Memory.ofBytes bytes).map Prod.fst = List.range bytes.length) (hh : headIncomplete (held cap bytes).valid = true) :
    (held cap bytes).Inv :=
  ⟨h3, hl, hk, rfl, fun h => absurd h Bool.false_ne_true, fun _ => hh⟩

/-- An idle block with an open sysex in it is sound. -/
theorem inv_idle : (held 8 [0xF0, 0x0D]).Inv := inv_held (by decide) (by decide) (by decide) (by decide)

/-- So is one that is wedged (V28). -/
theorem inv_full : (held 8 [0xF0, 0x0E, 1, 2, 3, 4, 5, 6]).Inv :=
  inv_held (by decide) (by decide) (by decide) (by decide)

/-- And one whose scan is under way. -/
theorem inv_running : (running 8 [0x90, 5, 0, 0xE0, 1]).Inv :=
  ⟨by decide, by decide, by decide, rfl, fun _ => by decide, fun h => absurd h (by decide)⟩

/-- Each row at both ends of its range. -/
theorem witness_CommandBytesFallInTheirRows :
    decodeStream [0x80] = .ok (.unassigned8x 0 ⟨[], false⟩) ∧ decodeStream [0x8F] = .ok (.unassigned8x 15 ⟨[], false⟩) ∧
    decodeStream [0x90] = .ok (.digitalUpdate 0 ⟨[], false⟩) ∧ decodeStream [0x9F] = .ok (.digitalUpdate 15 ⟨[], false⟩) ∧
    decodeStream [0xA0] = .ok (.unassignedAx 0 ⟨[], false⟩) ∧ decodeStream [0xAF] = .ok (.unassignedAx 15 ⟨[], false⟩) ∧
    decodeStream [0xB0] = .ok (.unassignedBx 0 ⟨[], false⟩) ∧ decodeStream [0xBF] = .ok (.unassignedBx 15 ⟨[], false⟩) ∧
    decodeStream [0xC0] = .ok (.analogStreamToggle 0 ⟨[], false⟩) ∧
    decodeStream [0xCF] = .ok (.analogStreamToggle 15 ⟨[], false⟩) ∧
    decodeStream [0xD0] = .ok (.digitalStreamToggle 0 ⟨[], false⟩) ∧
    decodeStream [0xDF] = .ok (.digitalStreamToggle 15 ⟨[], false⟩) ∧
    decodeStream [0xE0] = .ok (.analogUpdate 0 ⟨[], false⟩) ∧ decodeStream [0xEF] = .ok (.analogUpdate 15 ⟨[], false⟩) ∧
    0x80 ≤ (0x80#8).toNat ∧ (0x8F#8).toNat ≤ 0x8F ∧ 0x90 ≤ (0x90#8).toNat ∧ (0x9F#8).toNat ≤ 0x9F ∧
    0xA0 ≤ (0xA0#8).toNat ∧ (0xAF#8).toNat ≤ 0xAF ∧ 0xB0 ≤ (0xB0#8).toNat ∧ (0xBF#8).toNat ≤ 0xBF ∧
    0xC0 ≤ (0xC0#8).toNat ∧ (0xCF#8).toNat ≤ 0xCF ∧ 0xD0 ≤ (0xD0#8).toNat ∧ (0xDF#8).toNat ≤ 0xDF ∧
    0xE0 ≤ (0xE0#8).toNat ∧ (0xEF#8).toNat ≤ 0xEF ∧ (⟨[], false⟩ : Span) = ⟨dataPrefix [], !(afterData []).isEmpty⟩ := by
  decide

theorem witness_SysexFormsFallInTheirRows :
    (0x80#8).getLsbD 7 = true ∧ (0x80#8) ≠ 0xF7#8 ∧ (0xF8#8).getLsbD 7 = true ∧ (0xF8#8) ≠ 0xF7#8 ∧
    decodeStream (0xF0#8 :: byteOf 0x0C#7 :: (([] : List Group).map byteOf ++ [0xF7#8])) = .ok (.sxOther 0x0C#7 []) ∧
    (0x0C#7) ∉ assignedSubs := by decide

theorem witness_UnpackerCallsDecodeBySelectCode :
    decodeCall 6 [] = .error (.selectCode 6) ∧ decodeCall 7 [1] = .error (.selectCode 7) ∧
    decodeCall 0 [1, 2, 3] = .error (.groupCount 0 3) ∧ decodeCall 1 [] = .error (.groupCount 1 0) ∧
    decodeCall 2 [1, 2] = .error (.groupCount 2 2) ∧ decodeCall 3 [1, 2, 3, 4] = .error (.groupCount 3 4) ∧
    decodeCall 4 [1, 2, 3, 4, 5, 6] = .error (.groupCount 4 6) := by decide

theorem witness_DecodingAnEncodingGivesItBack :
    (Instr.setPinMode ⟨[1, 2], true⟩).wf = true ∧ (Instr.setPinMode ⟨[1, 2], true⟩).mayPrecede [0x90] = true ∧
    (Instr.sxOther 0x7F#7 [3]).wf = true ∧ (Instr.sxOther 0x7F#7 [3]).mayPrecede [4, 0xFF] = true ∧
    (Instr.sysexStart (.unterminated [1])).mayPrecede [0xF0] = true ∧ (Instr.pair [1]).mayPrecede [] = true := by decide

theorem witness_DecodedInstructionReencodesToItsBytes :
    decodeStream [0xC3, 1, 2, 0xF7] = .ok (.analogStreamToggle 3 ⟨[1, 2], true⟩) ∧
    decodeStream [0xF0, 1, 0xF7, 5] = .ok (.sxClearDisplay []) := by decide

/-- The ends of each range of R47. -/
theorem witness_RequiredArgumentCounts :
    need 0xFF#8 = 0 ∧ need 0xC0#8 = 1 ∧ need 0xDF#8 = 1 ∧ need 0xBF#8 = 2 ∧ need 0xE0#8 = 2 ∧ need 0x80#8 = 2 ∧
    need 0xFE#8 = 2 ∧ 0x80 ≤ (0x80#8).toNat ∧ (0x80#8) ≠ 0xF0#8 ∧ (0xFF#8) ≠ 0xF0#8 := by decide

/-- The ends of each range of R48. -/
theorem witness_MessageClasses :
    classOf 0x90#8 = .digitalUpdate ∧ classOf 0x9F#8 = .digitalUpdate ∧ classOf 0xE0#8 = .analogUpdate ∧
    classOf 0xEF#8 = .analogUpdate ∧ classOf 0xF9#8 = .protocolVersion ∧ classOf 0xC0#8 = .streamToggle ∧
    classOf 0xDF#8 = .streamToggle ∧ classOf 0xF4#8 = .pinMode ∧ classOf 0xFF#8 = .reset ∧ classOf 0x80#8 = .other ∧
    classOf 0x8F#8 = .other ∧ classOf 0xA0#8 = .other ∧ classOf 0xBF#8 = .other ∧ classOf 0xF1#8 = .other ∧
    classOf 0xF3#8 = .other ∧ classOf 0xF5#8 = .other ∧ classOf 0xF8#8 = .other ∧ classOf 0xFA#8 = .other ∧
    classOf 0xFE#8 = .other := by decide

theorem witness_BusyStepRunsTheDecodedInstruction :
    (running 8 [5, 0x90, 1, 0xFF]).calls = [] ∧ (running 8 [5, 0x90, 1, 0xFF]).busy = true ∧
    (running 8 [5, 0x90, 1, 0xFF]).bytes? = some [5, 0x90, 1, 0xFF] ∧
    findCmd [5, 0x90, 1, 0xFF] (running 8 [5, 0x90, 1, 0xFF]).cursor = some 1 ∧
    decodeStream (([5, 0x90, 1, 0xFF] : List Byte).drop 1) = .ok (.digitalUpdate 0 ⟨[1], true⟩) := by decide

theorem witness_UnpackerCallIsServedAtAnyTime :
    (calling 0 [1, 2]).calls = [⟨0, [1, 2]⟩] ∧ decode (.call 0 [1, 2]) = .ok (.u14 1 2) := by decide

theorem witness_UndefinedUnpackerCallsAreRefused :
    refusalOf (step (calling 6 [])) = some (.unpackOperation (.selectCode 6)) ∧
    refusalOf (step (calling 7 [1, 2])) = some (.unpackOperation (.selectCode 7)) ∧
    refusalOf (step (calling 1 [1])) = some (.unpackOperation (.groupCount 1 1)) ∧
    refusalOf (step (calling 2 [1, 2, 3, 4])) = some (.unpackOperation (.groupCount 2 4)) ∧
    refusalOf (step (calling 4 [])) = some (.unpackOperation (.groupCount 4 0)) := by decide

theorem witness_ScanWithoutCommandByteEmptiesTheBuffer :
    (running 8 [1, 2]).calls = [] ∧ (running 8 [1, 2]).busy = true ∧ (running 8 [1, 2]).bytes? = some [1, 2] ∧
    ∀ (j : Nat) (b : Byte), 0 ≤ j → ([1, 2] : List Byte)[j]? = some b → b.getLsbD 7 = false := by
  refine ⟨rfl, rfl, rfl, fun j b _ h => ?_⟩
  match j, h with
  | 0, h => cases h; rfl
  | 1, h => cases h; rfl

/-- R28 at both ends: `i = 0`, and `i = count`. -/
theorem witness_FindCmdIsTheLeastCommandByte :
    0 ≤ ([1, 0x80] : List Byte).length ∧ findCmd [1, 0x80] 0 = some 1 ∧ 2 ≤ ([1, 0x80] : List Byte).length ∧
    findCmd [1, 0x80] 2 = none := by decide

/-- The spans at which the two clauses of a row with `Need = 2` meet, closed and open. -/
theorem witness_rows_of_two_arguments :
    ((⟨[], true⟩ : Span).closed = true ∨ 2 ≤ (⟨[], true⟩ : Span).data.length) ∧
    ((⟨[1, 2], false⟩ : Span).closed = true ∨ 2 ≤ (⟨[1, 2], false⟩ : Span).data.length) ∧
    ((⟨[1], false⟩ : Span).closed = false ∧ (⟨[1], false⟩ : Span).data.length < 2) := by decide

/-- The same for `Need = 1`. -/
theorem witness_StreamTogglesAreFramed :
    ((⟨[], true⟩ : Span).closed = true ∨ 1 ≤ (⟨[], true⟩ : Span).data.length) ∧
    ((⟨[1], false⟩ : Span).closed = true ∨ 1 ≤ (⟨[1], false⟩ : Span).data.length) ∧
    ((⟨[], false⟩ : Span).closed = false ∧ (⟨[], false⟩ : Span).data.length < 1) := by decide

theorem witness_UpdateMessagesAreFramed :
    completeSpan (0x90#8 + (15#4).setWidth 8) ⟨[1, 2], false⟩ = true ∧ completeSpan 0xE0#8 ⟨[1], false⟩ = false := by decide

theorem witness_PinAndVersionMessagesAreFramed :
    completeSpan 0xF4#8 ⟨[1, 2], false⟩ = true ∧ completeSpan 0xF5#8 ⟨[], true⟩ = true ∧
    completeSpan 0xF9#8 ⟨[1], false⟩ = false := by decide

theorem witness_UnassignedNibblesAreFramed :
    completeSpan 0x80#8 ⟨[1, 2], false⟩ = true ∧ completeSpan 0xAF#8 ⟨[], true⟩ = true ∧
    completeSpan 0xB0#8 ⟨[1], false⟩ = false := by decide

theorem witness_UnassignedSystemBytesAreFramed :
    completeSpan 0xF1#8 ⟨[1, 2], false⟩ = true ∧ completeSpan 0xF3#8 ⟨[], true⟩ = true ∧
    completeSpan 0xFE#8 ⟨[1], false⟩ = false := by decide

theorem witness_StraySysexEndIsFramed :
    completeSpan 0xF7#8 ⟨[], true⟩ = true ∧ completeSpan 0xF7#8 ⟨[], false⟩ = false := by decide

/-- Both sides of 8191. -/
theorem witness_SignedFourteenBitUnpacks :
    (8191 : Int) = (0x7F#7).toNat + 2 ^ 7 * (0x3F#7).toNat ∧ (8192 : Int) = (0#7).toNat + 2 ^ 7 * (0x40#7).toNat := by
  decide

/-- Both sides of 2^31, and a fifth group with bits that do not count. -/
theorem witness_ThirtyTwoBitUnpacks :
    (2147483647 : Int) = ((0x7F + 2 ^ 7 * 0x7F + 2 ^ 14 * 0x7F + 2 ^ 21 * 0x7F + 2 ^ 28 * 0x07 : Nat) : Int) % 2 ^ 32 ∧
    (2147483648 : Int) = ((2 ^ 28 * 0x78 : Nat) : Int) % 2 ^ 32 := by decide

theorem witness_PairsUnpackToCodes :
    0 < ([1, 2, 3] : List Group).length / 2 ∧ pairCodes [1, 2, 3] = [257] := by decide

/-- The ends of each range of R133. -/
theorem witness_UnpackingAPackedNumberGivesItBack :
    (fieldP14 (pack14 (-8192)).1 (pack14 (-8192)).2).toInt = -8192 ∧
    (fieldP14 (pack14 8191).1 (pack14 8191).2).toInt = 8191 ∧
    (fieldP14 (pack14 16383).1 (pack14 16383).2).toNat = 16383 ∧
    pack21 2097151 = (0x7F, 0x7F, 0x7F) ∧ pack32Top false (-2 ^ 31) = 0x08 ∧ pack32Top true (-2 ^ 31) = 0x78 ∧
    pack32Top true (2 ^ 31 - 1) = 0x07 := by decide

theorem witness_InstructionFrame :
    (∃ t, exec (.setPinMode ⟨[1, 2], false⟩) (running 8 [0xF4, 1, 2]) = .next t) ∧
    (∃ t, exec (.u14 1 2) (held 8 []) = .next t) ∧
    isIncomplete (.setPinMode ⟨[1, 2], false⟩) = false ∧ isUnpack (.u14 1 2) = true ∧
    isUnpack (.setPinMode ⟨[1, 2], false⟩) = false :=
  ⟨⟨_, rfl⟩, ⟨_, rfl⟩, by decide, by decide, by decide⟩

theorem witness_IncompleteInstructionIsRetained :
    isIncomplete (.digitalUpdate 0 ⟨[1], false⟩) = true ∧ isIncomplete (.analogStreamToggle 0 ⟨[], false⟩) = true ∧
    isIncomplete (.sysexStart (.unfinished [])) = true ∧
    0 < ((running 8 [0x90]).latch [0x90] 0).count - ((running 8 [0x90]).latch [0x90] 0).lat.s := by decide

theorem witness_ProcessAppendsWhatFits :
    (held 8 [0xF0]).busy = false ∧ (held 8 [0xF0]).initialised = true ∧ ([1, 2] : List Byte) ≠ [] ∧
    2 = min ([1, 2] : List Byte).length ((held 8 [0xF0]).cap - (held 8 [0xF0]).count) := by decide

theorem witness_EmptyProcessIsANoOp :
    (held 8 [0xF0]).busy = false ∧ (held 8 [0xF0]).initialised = true := by decide

theorem witness_CompactShiftsTheUnconsumedRegion :
    0 < (held 8 [0x90, 5]).count ∧ 1 < (held 8 [0x90, 5]).count ∧ 0 < (held 8 [0x90, 5]).count - 1 ∧
    (held 8 [0x90, 5]).mem.map Prod.fst = List.range (held 8 [0x90, 5]).count := by decide

theorem witness_ResetTransactionEmptiesTheBlock :
    (asked 8 [0xF0] [.reset, .readStatus]).calls = [] ∧ (asked 8 [0xF0] [.reset, .readStatus]).busy = false ∧
    (asked 8 [0xF0] [.reset, .readStatus]).requests = .reset :: [.readStatus] := by decide

theorem witness_BusyBlockAcceptsNothing : (running 8 [0x90]).busy = true := by decide

theorem witness_ProcessBeforeTheFirstResetIsRefused :
    ({ asked 8 [] [.process [0x90]] with initialised := false } : State).initialised = false ∧
    ({ asked 8 [] [.process [0x90]] with initialised := false } : State).requests = .process [0x90] :: [] ∧
    ({ asked 8 [] [.reset] with initialised := false } : State).requests = .reset :: [] ∧
    (asked 8 [] [.reset]).calls = [] ∧ (asked 8 [] [.reset]).busy = false := by decide

theorem witness_StatusViewShowsCountAndFlags :
    (held 8 [0xF0, 0x0D]).count ≤ (held 8 [0xF0, 0x0D]).cap ∧ (held 8 []).busy = false ∧ 1 ≤ 3 ∧ indexWidth 3 = 2 ∧
    indexWidth 8 = 4 ∧ indexWidth 64 = 7 := by decide

/-- A PROCESS that does not fit, and a pass that skips a sysex. -/
theorem witness_FlagsAreSticky :
    (∃ t, step (asked 3 [0xF0] [.process [1, 2, 3]]) = .next t) ∧
    (asked 3 [0xF0] [.process [1, 2, 3]]).cap - (asked 3 [0xF0] [.process [1, 2, 3]]).count < 3 ∧
    (∀ rs, ¬((asked 3 [0xF0] [.process [1, 2, 3]]).calls = [] ∧ (asked 3 [0xF0] [.process [1, 2, 3]]).busy = false ∧
      (asked 3 [0xF0] [.process [1, 2, 3]]).requests = .reset :: rs)) ∧
    decodeStream [0xF0, 1, 0x90] = .ok (.sysexStart (.unterminated [1])) ∧
    (nextOf (step (running 8 [0xF0, 1, 0x90]))).map State.skip = some true :=
  ⟨⟨_, rfl⟩, by decide, fun _ h => Request.noConfusion (List.cons.inj h.2.2).1, by decide, by decide⟩

theorem witness_FlagsChangeNothingElse : ∃ t, step (running 8 [0xF0, 1, 0x90]) = .next t := ⟨_, rfl⟩

theorem witness_ResetMeetsTheInvariant : 3 ≤ 3 ∧ State.reset.cap = 64 := by decide

theorem witness_EveryStepKeepsTheInvariant :
    (running 8 [0x90, 5, 0, 0xE0, 1]).Inv ∧ ∃ t, step (running 8 [0x90, 5, 0, 0xE0, 1]) = .next t :=
  ⟨inv_running, _, rfl⟩

theorem witness_SoundStateAlwaysSteps : (held 8 [0xF0, 0x0D]).Inv ∧ (held 8 [0xF0, 0x0D]).calls = [] := ⟨inv_idle, rfl⟩

theorem witness_EveryPassReturnsOrAdvances :
    (running 8 [0x90, 5, 0, 0xE0, 1]).Inv ∧ (running 8 [0x90, 5, 0, 0xE0, 1]).calls = [] ∧
    (running 8 [0x90, 5, 0, 0xE0, 1]).busy = true ∧ ∃ t, step (running 8 [0x90, 5, 0, 0xE0, 1]) = .next t :=
  ⟨inv_running, rfl, rfl, _, rfl⟩

theorem witness_ValidBytesStayInArrivalOrder :
    (running 8 [0x90, 5, 0, 0xE0, 1]).Inv ∧ ∃ t, step (running 8 [0x90, 5, 0, 0xE0, 1]) = .next t ∧
      t.valid = [0x90, 5, 0, 0xE0, 1] := ⟨inv_running, _, rfl, by decide⟩

/-- A payload of exactly `CAP - 3` bytes. -/
theorem witness_EmittedSysexFitsTheBuffer :
    (running 4 [0xF0, 1, 2, 0xF7]).Inv ∧ ∃ t, step (running 4 [0xF0, 1, 2, 0xF7]) = .next t ∧
      t.emits = (running 4 [0xF0, 1, 2, 0xF7]).emits ++ [⟨0, .sx 0x01#7 [2]⟩] ∧ ([2] : List Group).length = 4 - 3 :=
  ⟨⟨by decide, by decide, by decide, rfl, fun _ => by decide, fun h => absurd h (by decide)⟩, _, rfl, by decide, rfl⟩

theorem witness_FullBufferIsTheWedge :
    (held 8 [0xF0, 0x0E, 1, 2, 3, 4, 5, 6]).Inv ∧ (held 8 [0xF0, 0x0E, 1, 2, 3, 4, 5, 6]).busy = false ∧
    (held 8 [0xF0, 0x0E, 1, 2, 3, 4, 5, 6]).count = (held 8 [0xF0, 0x0E, 1, 2, 3, 4, 5, 6]).cap :=
  ⟨inv_full, rfl, rfl⟩

theorem witness_WedgeLastsUntilReset :
    (asked 3 [0xF0, 1, 2] [.process [0xF7]]).wedged = true ∧
    (∃ t, step (asked 3 [0xF0, 1, 2] [.process [0xF7]]) = .next t ∧ t.ovf = true) ∧
    (∀ rs, ¬((asked 3 [0xF0, 1, 2] [.process [0xF7]]).calls = [] ∧ (asked 3 [0xF0, 1, 2] [.process [0xF7]]).busy = false ∧
      (asked 3 [0xF0, 1, 2] [.process [0xF7]]).requests = .reset :: rs)) :=
  ⟨by decide, ⟨_, rfl, by decide⟩, fun _ h => Request.noConfusion (List.cons.inj h.2.2).1⟩

theorem inv_asked (rs : List Request) : (asked 8 [0xF0, 0x0D] rs).Inv :=
  ⟨inv_idle.1, inv_idle.2, inv_idle.3, rfl, fun h => absurd h Bool.false_ne_true, fun _ => inv_idle.6 rfl⟩

theorem witness_ProcessIsTheSegmentView :
    (asked 8 [0xF0, 0x0D] [.process [1, 0xF7, 0x90]]).Inv ∧ (asked 8 [0xF0, 0x0D] [.process [1, 0xF7, 0x90]]).busy = false ∧
    (asked 8 [0xF0, 0x0D] [.process [1, 0xF7, 0x90]]).calls = [] ∧ ([1, 0xF7, 0x90] : List Byte) ≠ [] ∧
    3 = min ([1, 0xF7, 0x90] : List Byte).length (8 - 2) ∧
    segmentView ([0xF0, 0x0D] ++ ([1, 0xF7, 0x90] : List Byte).take 3) = ⟨[.sx 0x0D#7 [1]], [0x90], false⟩ :=
  ⟨inv_asked _, rfl, rfl, by decide, by decide, by decide⟩

/-- The end of a sysex and an F9 report, in two chunks and in one. -/
theorem witness_ChunkingDoesNotMatter :
    (held 8 [0xF0, 0x0D]).Inv ∧ ([[0xF7, 0xF9], [2, 5]] : List (List Byte)).flatten = [[0xF7, 0xF9, 2, 5]].flatten ∧
    ∃ t u, Host.Core.run Sys2Proof.core 6 { held 8 [0xF0, 0x0D] with requests := [[0xF7, 0xF9], [2, 5]].map .process } =
        .next t ∧
      Host.Core.run Sys2Proof.core 4 { held 8 [0xF0, 0x0D] with requests := [[0xF7, 0xF9, 2, 5]].map .process } = .next u ∧
      State.quiet t = true ∧ State.quiet u = true ∧ State.ovf t = false ∧ State.ovf u = false :=
  ⟨inv_idle, rfl, _, _, rfl, rfl, by decide, by decide, by decide, by decide⟩

theorem witness_ConsumerDigitalUpdate :
    (0x92#8) &&& 0xF0#8 = 0x90#8 ∧ (2#4) = (0x92#8).setWidth 4 ∧ 20 / 8 = (0x92#8).toNat % 16 ∧ 20 < 21 := by decide

theorem witness_ConsumerAnalogUpdate :
    (0xEF#8) &&& 0xF0#8 = 0xE0#8 ∧ (15#4) = (0xEF#8).setWidth 4 ∧ 15 = (0xEF#8).toNat % 16 ∧
    (8192 : Int) = (0#7).toNat + 2 ^ 7 * (0x40#7).toNat := by decide

theorem witness_ConsumerVersionReports :
    (consumer.receive (ch 0xF9#8 .protocolVersion 9 2 2 5)).firmataVersion =
      ("Firmata Protocol 2.5".toList).map .char ∧ 0 < ([0x6D, 0] : List Group).length / 2 := by decide

theorem witness_ConsumerIgnoresEverythingElse :
    (0xFF#8) &&& 0xF0#8 ≠ 0x90#8 ∧ (0xFF#8) &&& 0xF0#8 ≠ 0xE0#8 ∧ (0xFF#8) ≠ 0xF9#8 ∧ (0x0E#7) ≠ 0x0D#7 ∧
    (0x0E#7) ≠ 0x79#7 ∧ (0x0C#7) ≠ 0x0D#7 ∧ (0x0C#7) ≠ 0x79#7 ∧ (0x0C#7) ≠ 0x0E#7 := by decide

theorem witness_ConsumerShowsDebugStrings : 0 < ([0x48, 0] : List Group).length / 2 := by decide

/-- A step that emits, one that does not, and one that is refused. -/
theorem witness_MessageReachesTheConsumerInItsStep :
    (∃ t, step (running 8 [0xFF]) = .next t ∧ t.emits ≠ []) ∧ (∃ t, step (running 8 [0x90]) = .next t ∧ t.emits = []) ∧
    (∃ r, step (calling 6 []) = .refused r) ∧ (∃ f, step { running 8 [] with count := 1 } = .fault f) :=
  ⟨⟨_, rfl, by decide⟩, ⟨_, rfl, by decide⟩, ⟨_, rfl⟩, ⟨_, rfl⟩⟩

theorem witness_ConsumerFollowsTheEmitSequence :
    ∃ y' : System Consumer, Host.Core.run (System.core Consumer.receive consumer) 2
        ⟨running 8 [0xFF, 0xFE, 1, 2], consumer⟩ = .next y' ∧ y'.block.emits ≠ [] := ⟨_, rfl, by decide⟩

end Sys2Proof.Tests
end

