-- ==== Sys2Proof/Proofs/Scope.lean ====
section
/-!
PROOFS. The block with a sink behind it (00_scope.md R5): a step hands over the message it emits, and a run hands over the
sequence of them.
-/

namespace Sys2Proof.Machine

section Sink

variable {κ : Type} {take : κ → Message → κ}

/-! ## One step -/

/-- Where the block makes a step, the block with its sink makes it too, and the sink takes the message emitted, if any. -/
theorem system_step_of_next {y : System κ} {t : State} (h : step y.block = .next t) :
    ∃ y', y.step take = .next y' ∧ y'.block = t ∧
      ((t.emits = y.block.emits ∧ y'.sink = y.sink) ∨
        ∃ m, t.emits = y.block.emits ++ [⟨y.block.txn, m⟩] ∧ y'.sink = take y.sink m) := by
  refine ⟨_, system_step_next.2 ⟨t, h, rfl⟩, rfl, ?_⟩
  rcases step_emits h with he | ⟨m, he⟩
  · have hm : emittedBy y.block t = [] := emittedBy_append (es := []) (by simpa using he)
    exact .inl ⟨he, by simp [hm]⟩
  · have hm : emittedBy y.block t = [m] := emittedBy_append he
    exact .inr ⟨m, he, by simp [hm]⟩

theorem system_step_of_fault {y : System κ} {f : Fault} (h : step y.block = .fault f) :
    y.step take = .fault f := by
  simp only [System.step, h]

theorem system_step_of_refused {y : System κ} {r : Refusal} (h : step y.block = .refused r) :
    y.step take = .refused r := by
  simp only [System.step, h]

/-! ## A run -/

/-- From `y` to `y'` the block has emitted a sequence of messages, and the sink has taken exactly those, in their order. -/
def SinkFollows (take : κ → Message → κ) (y y' : System κ) : Prop :=
  ∃ events : List EmitEvent, y'.block.emits = y.block.emits ++ events ∧
    y'.sink = (events.map EmitEvent.msg).foldl take y.sink

theorem SinkFollows.refl (y : System κ) : SinkFollows take y y := ⟨[], by simp⟩

theorem SinkFollows.trans {y z w : System κ} (h₁ : SinkFollows take y z) (h₂ : SinkFollows take z w) :
    SinkFollows take y w := by
  obtain ⟨es, hes, hs⟩ := h₁
  obtain ⟨fs, hfs, ht⟩ := h₂
  exact ⟨es ++ fs, by simp [hfs, hes], by simp [ht, hs]⟩

/-- A step of the block with its sink is the block's own step, and the sink follows what it emits. -/
theorem system_step_follows {y y' : System κ} (h : y.step take = .next y') :
    step y.block = .next y'.block ∧ SinkFollows take y y' := by
  obtain ⟨t, ht, -⟩ := system_step_next.1 h
  obtain ⟨z, hz, rfl, hsink⟩ := system_step_of_next (take := take) ht
  obtain rfl := Host.Outcome.next.inj (hz.symm.trans h)
  refine ⟨ht, ?_⟩
  rcases hsink with ⟨he, hs⟩ | ⟨m, he, hs⟩
  · exact ⟨[], by simpa using he, hs⟩
  · exact ⟨[⟨y.block.txn, m⟩], he, hs⟩

/-- A run of the block with its sink is the block's own run, and the sink follows what it emits. -/
theorem system_run_follows {start : κ} {n : Nat} {y y' : System κ}
    (h : Host.Core.run (System.core take start) n y = .next y') :
    Host.Core.run Sys2Proof.core n y.block = .next y'.block ∧ SinkFollows take y y' := by
  induction n generalizing y with
  | zero =>
    obtain rfl := Host.Outcome.next.inj h
    exact ⟨rfl, .refl y⟩
  | succ n ih =>
    obtain ⟨z, hz, hrun⟩ := run_succ_next h
    obtain ⟨hstep, hfirst⟩ := system_step_follows hz
    obtain ⟨hrest, hlater⟩ := ih hrun
    exact ⟨(run_of_next (M := Sys2Proof.core) hstep n).trans hrest, hfirst.trans hlater⟩

end Sink

/-! ## The statements -/

/-- Settles O58: a step emits at most one message, and what it emits is folded into the sink in that step. -/
theorem messageReachesTheConsumerInItsStep : Obligations.MessageReachesTheConsumerInItsStep :=
  ⟨fun _ _ _ => ⟨fun _ => system_step_of_next, fun _ => system_step_of_fault, fun _ => system_step_of_refused⟩,
    fun _ _ => system_step_of_next⟩

/-- Settles O59, by induction on the length of the run. -/
theorem consumerFollowsTheEmitSequence : Obligations.ConsumerFollowsTheEmitSequence :=
  ⟨fun _ _ _ _ _ _ => system_run_follows, fun _ _ _ _ h => (system_run_follows h).2⟩

end Sys2Proof.Machine
end

/-!
PROOFS. The state and its invariant (10_state.md): the reset state, the STATUS view, what an instruction and a step leave
unchanged, the two flags, and the invariant that every step keeps.
-/

namespace Sys2Proof.Machine

/-! ## The same buffer -/

/-- The parameter, the buffer and the initialised bit are the same in both states. -/
structure SameBuffer (s t : State) : Prop where
  cap : t.cap = s.cap
  mem : t.mem = s.mem
  count : t.count = s.count
  live : t.initialised = s.initialised

theorem SameBuffer.valid {s t : State} (h : SameBuffer s t) : t.valid = s.valid := by
  simp only [State.valid, State.bytes?, h.mem, h.count]

/-! ## Where the invariant holds -/

/-- A state whose buffer is that of a list of bytes meets the invariant when the list does. -/
theorem State.Inv.of_bytes {t : State} {bs : List Byte} (hcap : 3 ≤ t.cap) (hm : t.mem = Memory.ofBytes bs)
    (hc : t.count = bs.length) (hb : bs.length ≤ t.cap) (hl : t.initialised = true)
    (hscan : t.busy = true → t.cursor ≤ bs.length) (hhead : t.busy = false → headIncomplete bs = true) : t.Inv where
  capacity := hcap
  bounded := hc ▸ hb
  cells := State.cells_of_ofBytes hm hc
  live := hl
  scanning := hc ▸ hscan
  head := (State.valid_of_ofBytes hm hc).2.symm ▸ hhead

/-- The empty, idle block meets the invariant. -/
theorem State.Inv.of_empty {t : State} (hcap : 3 ≤ t.cap) (hm : t.mem = []) (hc : t.count = 0)
    (hl : t.initialised = true) (hb : t.busy = false) : t.Inv :=
  .of_bytes (bs := []) hcap hm hc (Nat.zero_le _) hl (fun h => absurd (hb.symm.trans h) Bool.false_ne_true) fun _ => rfl

/-- The invariant passes to a state with the same buffer, unless that state has left the loop. -/
theorem State.Inv.of_sameBuffer {s t : State} (hs : s.Inv) (h : SameBuffer s t)
    (hscan : t.busy = true → t.cursor ≤ s.count) (hidle : t.busy = false → s.busy = false) : t.Inv where
  capacity := h.cap ▸ hs.capacity
  bounded := by rw [h.cap, h.count]; exact hs.bounded
  cells := by rw [h.mem, h.count]; exact hs.cells
  live := h.live.trans hs.live
  scanning := h.count ▸ hscan
  head := fun hb => h.valid ▸ hs.head (hidle hb)

theorem State.Inv.with_requests {s : State} (hs : s.Inv) (rs : List Request) : State.Inv { s with requests := rs } :=
  hs.of_sameBuffer ⟨rfl, rfl, rfl, rfl⟩ hs.scanning id

theorem State.Inv.bytes_eq {s : State} (hs : s.Inv) {bs : List Byte} (hv : s.bytes? = some bs) : bs = s.valid :=
  Option.some.inj (hv.symm.trans (State.buffer_of_cells hs.cells).1)

/-! ## One pass of the loop -/

/-- A pass that examines a segment moves the cursor past its command byte over the same buffer, or retains an incomplete
open segment and returns (R68 to R71, R73). -/
theorem Examines.advances_or_retains {s t : State} {bs : List Byte} {p : Nat} {c : Byte} {d : List Group}
    {tail : List Byte} (h : Examines s bs p c d tail) (ht : step s = .next t) :
    (SameBuffer s t ∧ t.busy = true ∧ p < t.cursor ∧ t.cursor ≤ bs.length) ∨
    (tail = [] ∧ (c = 0xF0#8 ∨ d.length < need c) ∧ t = ((s.latch bs p).compact p).finish) := by
  have hlen := h.length
  have advanced {u : State} (hu : step s = .next u) (hb : SameBuffer s u ∧ u.busy = s.busy)
      (hc : p < u.cursor ∧ u.cursor ≤ bs.length) :
      SameBuffer s t ∧ t.busy = true ∧ p < t.cursor ∧ t.cursor ≤ bs.length := by
    obtain rfl := Host.Outcome.next.inj (ht.symm.trans hu)
    exact ⟨hb.1, hb.2.trans h.busy, hc⟩
  have retained (hu : step s = .next ((s.latch bs p).compact p).finish) : t = ((s.latch bs p).compact p).finish :=
    Host.Outcome.next.inj (ht.symm.trans hu)
  by_cases h0 : c = 0xF0#8
  · subst h0
    cases tail with
    | nil => exact .inr ⟨rfl, .inl rfl, retained h.step_sysex_open⟩
    | cons e r =>
      simp only [List.length_cons] at hlen
      by_cases h7 : e = 0xF7#8
      · subst h7
        cases d with
        | nil =>
          exact .inl (advanced h.step_sysex_empty ⟨⟨rfl, rfl, rfl, rfl⟩, rfl⟩ (by simp at hlen ⊢; omega))
        | cons sub payload =>
          exact .inl (advanced h.step_sysex_message ⟨⟨rfl, rfl, rfl, rfl⟩, rfl⟩ (by simp at hlen ⊢; omega))
      · exact .inl (advanced (h.step_sysex_skip h7) ⟨⟨rfl, rfl, rfl, rfl⟩, rfl⟩ (by simp; omega))
  · by_cases hn : tail ≠ [] ∨ need c ≤ d.length
    · exact .inl (advanced (h.step_channel_complete h0 hn) ⟨⟨rfl, rfl, rfl, rfl⟩, rfl⟩ (by simp; omega))
    · simp only [not_or, not_not, not_le] at hn
      obtain ⟨rfl, hn⟩ := hn
      exact .inr ⟨rfl, .inr hn, retained (h.step_channel_incomplete h0 hn)⟩

/-- What a PROCESS retains is one open, incomplete segment (R19). -/
theorem headIncomplete_of_open {c : Byte} {d : List Group} (hc : isCommand c = true)
    (h : c = 0xF0#8 ∨ d.length < need c) : headIncomplete (c :: d.map byteOf) = true := by
  simpa [headIncomplete, hc] using h

/-! ## Every step keeps the invariant -/

theorem State.Inv.of_examined {s t : State} {bs : List Byte} {p : Nat} {c : Byte} {d : List Group} {tail : List Byte}
    (hs : s.Inv) (he : Examines s bs p c d tail) (ht : step s = .next t) : t.Inv := by
  obtain rfl := hs.bytes_eq he.bytes
  have hlen := (State.buffer_of_cells hs.cells).2.2
  rcases he.advances_or_retains ht with ⟨hsame, hbusy, -, hcur⟩ | ⟨rfl, hinc, rfl⟩
  · exact hs.of_sameBuffer hsame (fun _ => hlen ▸ hcur) fun hb => absurd (hb.symm.trans hbusy) Bool.false_ne_true
  · obtain ⟨hm, hc⟩ := State.compact_buffer (s := s.latch s.valid p) hs.cells p
    have hle : (s.valid.drop p).length ≤ s.cap := by
      have := hs.bounded
      rw [List.length_drop]; omega
    have hhead : headIncomplete (s.valid.drop p) = true := by
      rw [he.shape, List.append_nil]; exact headIncomplete_of_open he.command hinc
    exact .of_bytes hs.capacity hm hc hle hs.live nofun fun _ => hhead

theorem State.Inv.of_startProcess {s : State} (hs : s.Inv) (data : List Byte) : (s.startProcess data).Inv := by
  by_cases hd : data = []
  · subst hd
    exact hs.of_sameBuffer ⟨rfl, rfl, rfl, rfl⟩ hs.scanning id
  · rw [State.startProcess_of_ne_nil _ hd]
    obtain ⟨hm, hc⟩ := State.append_buffer hs.cells data
    have hle : s.count + s.room data.length ≤ s.cap := by
      have := hs.bounded
      rw [State.room]; omega
    exact .of_bytes hs.capacity hm hc (hc ▸ hle) hs.live (fun _ => Nat.zero_le _) nofun

theorem State.Inv.of_step {s t : State} (hs : s.Inv) (h : step s = .next t) : t.Inv := by
  cases step_next h with
  | called c cs i _ _ hd hx =>
    obtain ⟨r, rfl⟩ := exec_isUnpack hx (decodeCall_isUnpack hd)
    exact hs.of_sameBuffer ⟨rfl, rfl, rfl, rfl⟩ hs.scanning id
  | emptied => exact .of_empty hs.capacity rfl rfl hs.live rfl
  | examined bs p i _ hc hb hv hf _ _ =>
    obtain ⟨c, d, tail, he⟩ := exists_examines hc hb hv hf
    exact hs.of_examined he h
  | accepted r rs _ _ _ _ hx =>
    have hs' := hs.with_requests rs
    obtain ⟨-, ⟨-, rfl⟩ | ⟨data, -, -, rfl⟩ | ⟨-, rfl⟩⟩ := accept_next hx
    · exact .of_empty hs.capacity rfl rfl rfl rfl
    · exact hs'.of_startProcess data
    · exact hs'.of_sameBuffer ⟨rfl, rfl, rfl, rfl⟩ hs'.scanning id
  | waited => exact hs

/-! ## The order of the valid bytes -/

/-- The valid bytes after the start of a PROCESS: what fits stands at their end (R26). -/
theorem State.Inv.valid_startProcess {s : State} (hs : s.Inv) (data : List Byte) :
    (s.startProcess data).valid = s.valid ++ data.take (s.room data.length) := by
  by_cases hd : data = []
  · subst hd
    simpa using SameBuffer.valid (s := s) (t := s.startProcess []) ⟨rfl, rfl, rfl, rfl⟩
  · obtain ⟨hm, hc⟩ := State.append_buffer hs.cells data
    rw [State.startProcess_of_ne_nil _ hd]
    exact (State.valid_of_ofBytes hm hc).2

/-- A pass that examines a segment keeps the valid bytes, or drops those before the segment. -/
theorem State.Inv.valid_of_examined {s t : State} {bs : List Byte} {p : Nat} {c : Byte} {d : List Group}
    {tail : List Byte} (hs : s.Inv) (he : Examines s bs p c d tail) (ht : step s = .next t) :
    t.valid = s.valid ∨ t.valid = s.valid.drop p := by
  rcases he.advances_or_retains ht with ⟨hsame, -⟩ | ⟨-, -, rfl⟩
  · exact .inl hsame.valid
  · obtain ⟨hm, hc⟩ := State.compact_buffer (s := s.latch bs p) hs.cells p
    exact .inr (State.valid_of_ofBytes (s := ((s.latch bs p).compact p).finish) hm hc).2

theorem State.valid_of_empty {t : State} (hm : t.mem = []) (hc : t.count = 0) : t.valid = [] :=
  (State.valid_of_ofBytes (bs := []) hm hc).2

/-! ## What each instruction does -/

/-- What an instruction makes of a state, and which instructions do so. -/
inductive Meaning (i : Instr) : (State → State) → Prop where
  /-- A message is emitted and the cursor moves `k` past `end`. -/
  | emits (m : Message) (k : Nat) (hu : isUnpack i = false) (hf : ∀ f, i ≠ .sysexStart f) :
      Meaning i fun s => (s.emit m).advance (s.lat.fin + k)
  | retains (hi : isIncomplete i = true) : Meaning i fun s => (s.compact s.lat.s).finish
  | skips (d : List Group) (hi : i = .sysexStart (.unterminated d)) : Meaning i fun s => s.raiseSkip.advance s.lat.fin
  | consumes (hi : i = .sysexStart .empty) : Meaning i fun s => s.advance (s.lat.fin + 1)
  | delivers (r : UnpackResult) (hu : isUnpack i = true) : Meaning i fun s => s.deliver r

/-- A channel row emits a complete segment and retains an incomplete one (R80). -/
theorem channel_meaning {i : Instr} {c : Byte} {sp : Span} (hc : channelOf i = some (c, sp))
    (hu : isUnpack i = false) (hx : ∀ s, exec i s = frameChannel c sp s) :
    ∃ f, (∀ s, exec i s = .next (f s)) ∧ Meaning i f := by
  by_cases h : completeSpan c sp = true
  · refine ⟨_, fun s => (hx s).trans (frameChannel_complete s h), .emits _ 0 hu ?_⟩
    rintro f rfl
    cases hc
  · simp only [Bool.not_eq_true] at h
    refine ⟨_, fun s => (hx s).trans (frameChannel_incomplete s h), .retains ?_⟩
    simpa [isIncomplete, hc, completeSpan] using h

/-- Every instruction answers a next state from every state, and does the same in each. -/
theorem exec_meaning (i : Instr) : ∃ f, (∀ s, exec i s = .next (f s)) ∧ Meaning i f := by
  cases i with
  | unassigned8x _ _ | digitalUpdate _ _ | unassignedAx _ _ | unassignedBx _ _ | analogStreamToggle _ _
  | digitalStreamToggle _ _ | analogUpdate _ _ | unassignedF1 _ | unassignedF2 _ _ | setPinMode _ | setDigitalPin _
  | unassignedF6 _ | sysexEnd _ | unassignedF8 _ | protocolVersion _ | unassignedFA _ _ | unassignedFC _ _
  | unassignedFE _ | systemReset _ => exact channel_meaning rfl rfl fun _ => rfl
  | sysexStart f =>
    cases f with
    | unfinished d => exact ⟨_, fun _ => rfl, .retains rfl⟩
    | unterminated d => exact ⟨_, fun _ => rfl, .skips d rfl⟩
    | empty => exact ⟨_, fun _ => rfl, .consumes rfl⟩
  | sxClearDisplay _ | sxShowDisplay _ | sxPlotPixel _ | sxScrollString _ | sxScrollInteger _ | sxSetTouchMode _
  | sxReportEvent _ | sxDebugString _ | sxReportFirmware _ | sxOther _ _ =>
    exact ⟨_, fun _ => rfl, .emits _ 1 rfl nofun⟩
  | u14 _ _ | s14 _ _ | u21 _ _ _ | u32 _ _ _ _ _ | s32 _ _ _ _ _ | pair _ => exact ⟨_, fun _ => rfl, .delivers _ rfl⟩

/-- The same, for one run of the instruction. -/
theorem exec_next {i : Instr} {s t : State} (h : exec i s = .next t) :
    ∃ f, t = f s ∧ (∀ s, exec i s = .next (f s)) ∧ Meaning i f := by
  obtain ⟨f, hx, hm⟩ := exec_meaning i
  exact ⟨f, Host.Outcome.next.inj (h.symm.trans (hx s)), hx, hm⟩

theorem isUnpack_of_isIncomplete {i : Instr} (h : isIncomplete i = true) : isUnpack i = false := by
  cases i with
  | u14 _ _ | s14 _ _ | u21 _ _ _ | u32 _ _ _ _ _ | s32 _ _ _ _ _ | pair _ => exact absurd h Bool.false_ne_true
  | _ => rfl

/-! ## The flags -/

/-- No instruction changes `OVF` (R16). -/
theorem exec_ovf {i : Instr} {s t : State} (h : exec i s = .next t) : t.ovf = s.ovf := by
  obtain ⟨f, rfl, -, hm⟩ := exec_next h
  cases hm <;> rfl

/-- `SKIP` rises in a sysex without terminator, and in no other instruction (R16, R105). -/
theorem exec_skip {i : Instr} {s t : State} (h : exec i s = .next t) :
    t.skip = true ↔ s.skip = true ∨ ∃ d, i = .sysexStart (.unterminated d) := by
  obtain ⟨f, rfl, -, hm⟩ := exec_next h
  have kept {u : State} (hu : u.skip = s.skip) (hi : ∀ d, i ≠ .sysexStart (.unterminated d)) :
      u.skip = true ↔ s.skip = true ∨ ∃ d, i = .sysexStart (.unterminated d) := by simp [hu, hi]
  cases hm with
  | emits m k _ hf => exact kept rfl fun d => hf (.unterminated d)
  | retains hi => exact kept rfl (by rintro d rfl; cases hi)
  | skips d hi => exact iff_of_true rfl (.inr ⟨d, hi⟩)
  | consumes hi => exact kept rfl (by rintro d rfl; cases hi)
  | delivers r hu => exact kept rfl (by rintro d rfl; cases hu)

/-- `OVF` after the start of a PROCESS: it was set, or the data does not fit (R26). -/
theorem ovf_startProcess (s : State) (data : List Byte) :
    (s.startProcess data).ovf = true ↔ s.ovf = true ∨ s.cap - s.count < data.length := by
  by_cases hd : data = []
  · simp [hd]
  · simp [State.startProcess_of_ne_nil _ hd, ovfAfter, State.room]

theorem skip_startProcess (s : State) (data : List Byte) : (s.startProcess data).skip = s.skip := by
  unfold State.startProcess
  split <;> rfl

/-- The state with other flags, and other records of what reads of STATUS gave. -/
def State.reflag (ovf skip : Bool) (reads : List Status) (s : State) : State :=
  { s with ovf := ovf, skip := skip, statusReads := reads }

/-- No meaning reads the flags. -/
theorem exec_reflag {i : Instr} {s t : State} (h : exec i s = .next t) (ovf skip : Bool) (reads : List Status) :
    ∃ ovf' skip' reads', exec i (s.reflag ovf skip reads) = .next (t.reflag ovf' skip' reads') := by
  obtain ⟨f, rfl, hx, hm⟩ := exec_next h
  rw [hx]
  cases hm with
  | skips => exact ⟨ovf, true, reads, rfl⟩
  | emits | retains | consumes | delivers => exact ⟨ovf, skip, reads, rfl⟩

theorem accept_reset {s : State} (hb : s.busy = false) : accept .reset s = .next s.applyReset := by
  simp [accept, hb]

theorem accept_process {s : State} (hb : s.busy = false) (hi : s.initialised = true) (data : List Byte) :
    accept (.process data) s = .next (s.startProcess data) := by
  simp [accept, hb, hi]

theorem accept_readStatus {s : State} (hb : s.busy = false) : accept .readStatus s = .next s.answerStatus := by
  simp [accept, hb]

/-- The start of a PROCESS does not read the flags. -/
theorem startProcess_reflag (s : State) (data : List Byte) (ovf skip : Bool) (reads : List Status) :
    ∃ ovf', (s.reflag ovf skip reads).startProcess data = (s.startProcess data).reflag ovf' skip reads := by
  by_cases hd : data = []
  · subst hd
    exact ⟨ovf, rfl⟩
  · rw [State.startProcess_of_ne_nil _ hd, State.startProcess_of_ne_nil _ hd]
    exact ⟨ovfAfter ovf data.length (s.room data.length), rfl⟩

/-- The acceptance of a request does not read the flags. -/
theorem accept_reflag {r : Request} {s t : State} (h : accept r s = .next t) (ovf skip : Bool) (reads : List Status) :
    ∃ ovf' skip' reads', accept r (s.reflag ovf skip reads) = .next (t.reflag ovf' skip' reads') := by
  obtain ⟨hb, ⟨rfl, rfl⟩ | ⟨data, rfl, hi, rfl⟩ | ⟨rfl, rfl⟩⟩ := accept_next h
  · exact ⟨false, false, reads, accept_reset (s := s.reflag ovf skip reads) hb⟩
  · obtain ⟨ovf', hp⟩ := startProcess_reflag s data ovf skip reads
    exact ⟨ovf', skip, reads, hp ▸ accept_process (s := s.reflag ovf skip reads) hb hi data⟩
  · exact ⟨ovf, skip, reads ++ [(s.reflag ovf skip reads).status], accept_readStatus (s := s.reflag ovf skip reads) hb⟩

/-- No step reads the flags: whatever they are, the same step is made, and the states after it differ in nothing else
(R16). -/
theorem step_reflag {s t : State} (h : step s = .next t) (ovf skip : Bool) (reads : List Status) :
    ∃ ovf' skip' reads', step (s.reflag ovf skip reads) = .next (t.reflag ovf' skip' reads') := by
  cases step_next h with
  | called c cs i _ hc hd hx =>
    rw [step_call (s := s.reflag ovf skip reads) hc, hd]
    exact exec_reflag hx ovf skip reads
  | emptied bs hc hb hv hf =>
    have hf' : findCmd bs (s.reflag ovf skip reads).cursor = none := hf
    rw [step_busy (s := s.reflag ovf skip reads) hc hb hv, hf']
    exact ⟨ovf, skip, reads, rfl⟩
  | examined bs p i _ hc hb hv hf hd hx =>
    have hf' : findCmd bs (s.reflag ovf skip reads).cursor = some p := hf
    rw [step_busy (s := s.reflag ovf skip reads) hc hb hv, hf']
    simp only [hd]
    exact exec_reflag hx ovf skip reads
  | accepted r rs _ hc hb hr hx =>
    have hr' : (s.reflag ovf skip reads).requests = r :: rs := hr
    rw [step_idle (s := s.reflag ovf skip reads) hc hb, hr']
    exact accept_reflag hx ovf skip reads
  | waited hc hb hr =>
    have hr' : (s.reflag ovf skip reads).requests = [] := hr
    rw [step_idle (s := s.reflag ovf skip reads) hc hb, hr']
    exact ⟨ovf, skip, reads, rfl⟩

/-! ## The STATUS view -/

/-- `W` bits hold every index up to the capacity (R5). -/
theorem lt_two_pow_indexWidth (cap : Nat) : cap < 2 ^ indexWidth cap := Nat.lt_log2_self

/-- The two flags as the number that stands above COUNT in STATUS. -/
def flagBits (ovf skip : Bool) : Nat := ovf.toNat + 2 * skip.toNat

theorem flagBits_lt (ovf skip : Bool) : flagBits ovf skip < 4 := by revert ovf skip; decide

theorem testBit_zero_flagBits (ovf skip : Bool) : (flagBits ovf skip).testBit 0 = ovf := by revert ovf skip; decide

theorem testBit_one_flagBits (ovf skip : Bool) : (flagBits ovf skip).testBit 1 = skip := by revert ovf skip; decide

/-- STATUS is COUNT with the flags above it, and no bit is lost (R17). -/
theorem statusWord_toNat {s : State} (h : s.count ≤ s.cap) :
    s.statusWord.toNat = 2 ^ indexWidth s.cap * flagBits s.ovf s.skip + s.count := by
  have hc : s.count < 2 ^ indexWidth s.cap := h.trans_lt (lt_two_pow_indexWidth s.cap)
  have hk : 2 ^ indexWidth s.cap * flagBits s.ovf s.skip ≤ 2 ^ indexWidth s.cap * 3 :=
    Nat.mul_le_mul_left _ (Nat.le_of_lt_succ (flagBits_lt s.ovf s.skip))
  have hsum : s.count + s.ovf.toNat * 2 ^ indexWidth s.cap + s.skip.toNat * 2 ^ (indexWidth s.cap + 1) =
      2 ^ indexWidth s.cap * flagBits s.ovf s.skip + s.count := by
    rw [flagBits]; ring
  rw [State.statusWord, BitVec.toNat_ofNat, hsum, Nat.mod_eq_of_lt]
  rw [pow_add]
  omega

/-- The bits of STATUS above COUNT are the flags. -/
theorem statusWord_getLsbD {s : State} (h : s.count ≤ s.cap) (j : Nat) :
    s.statusWord.getLsbD (indexWidth s.cap + j) = (flagBits s.ovf s.skip).testBit j := by
  have hc : s.count < 2 ^ indexWidth s.cap := h.trans_lt (lt_two_pow_indexWidth s.cap)
  rw [BitVec.getLsbD, statusWord_toNat h, Nat.testBit_two_pow_mul_add _ hc]
  simp

/-! ## The statements -/

/-- Settles O42: every step gives a state over the same buffer, over an empty one, over the valid bytes with what fitted
of a PROCESS, or over the one segment it retained. -/
theorem everyStepKeepsTheInvariant : Obligations.EveryStepKeepsTheInvariant :=
  fun _ _ hs h => hs.of_step h

/-- Settles O29, by what each instruction means. -/
theorem instructionFrame : Obligations.InstructionFrame := by
  intro i s t h
  obtain ⟨f, rfl, -, hm⟩ := exec_next h
  cases hm with
  | emits m k hu hf =>
    exact ⟨rfl, rfl, rfl, rfl, rfl, rfl, rfl, fun _ => rfl, fun hu' => by simp [hu] at hu', fun _ => rfl,
      .inr ⟨m, rfl⟩, fun ⟨f, hi⟩ => absurd hi (hf f), fun _ => ⟨rfl, rfl, rfl, fun _ => rfl⟩⟩
  | retains hi =>
    have hu := isUnpack_of_isIncomplete hi
    exact ⟨rfl, rfl, rfl, rfl, rfl, rfl, rfl, fun _ => rfl, fun hu' => by simp [hu] at hu', fun _ => rfl,
      .inl rfl, fun _ => rfl, fun hi' => by simp [hi] at hi'⟩
  | skips d hi =>
    subst hi
    exact ⟨rfl, rfl, rfl, rfl, rfl, rfl, rfl, fun hn => absurd rfl (hn d), nofun, fun _ => rfl,
      .inl rfl, fun _ => rfl, fun _ => ⟨rfl, rfl, rfl, fun _ => rfl⟩⟩
  | consumes hi =>
    subst hi
    exact ⟨rfl, rfl, rfl, rfl, rfl, rfl, rfl, fun _ => rfl, nofun, fun _ => rfl,
      .inl rfl, fun _ => rfl, fun _ => ⟨rfl, rfl, rfl, fun _ => rfl⟩⟩
  | delivers r hu =>
    exact ⟨rfl, rfl, rfl, rfl, rfl, rfl, rfl, fun _ => rfl, fun _ => rfl, fun hu' => by simp [hu] at hu',
      .inl rfl, fun _ => rfl, fun _ => ⟨rfl, rfl, rfl, fun _ => rfl⟩⟩

/-- Settles O38: STATUS is the count plus `2^W` times the number the two flags make. -/
theorem statusViewShowsCountAndFlags : Obligations.StatusViewShowsCountAndFlags := by
  refine ⟨fun s h => ⟨?_, ?_, ?_⟩, fun cap hcap => ⟨lt_two_pow_indexWidth cap, ?_⟩, fun s hb => ?_⟩
  · rw [statusWord_toNat h, Nat.mul_add_mod]
    exact Nat.mod_eq_of_lt (h.trans_lt (lt_two_pow_indexWidth s.cap))
  · exact (statusWord_getLsbD h 0).trans (testBit_zero_flagBits _ _)
  · exact (statusWord_getLsbD h 1).trans (testBit_one_flagBits _ _)
  · exact Nat.lt_succ_of_le (Nat.log2_self_le (by omega))
  · exact accept_readStatus hb

/-- Settles O39: only the acceptance of a PROCESS touches `OVF`, and only a sysex without terminator `SKIP`. -/
theorem flagsAreSticky : Obligations.FlagsAreSticky := by
  intro s t h hreset
  cases step_next h with
  | called c cs i _ hc hd hx =>
    have hi : ∀ d, i ≠ .sysexStart (.unterminated d) := by
      rintro d rfl
      exact absurd (decodeCall_isUnpack hd) Bool.false_ne_true
    simp [exec_ovf hx, exec_skip hx, hi, hc]
  | emptied bs hc hb hv hf => simp [hb, hv, hf]
  | examined bs p i _ hc hb hv hf hd hx => simp [exec_ovf hx, exec_skip hx, hc, hb, hv, hf, hd]
  | accepted r rs _ hc hb hr hx =>
    obtain ⟨-, ⟨rfl, rfl⟩ | ⟨data, rfl, -, rfl⟩ | ⟨rfl, rfl⟩⟩ := accept_next hx
    · exact absurd ⟨hc, hb, hr⟩ (hreset rs)
    · simp [ovf_startProcess, skip_startProcess, hc, hb, hr]
    · simp [hb, hr]
  | waited hc hb hr => simp [hb, hr]

/-- Settles O40, by the simulation `step_reflag`. -/
theorem flagsChangeNothingElse : Obligations.FlagsChangeNothingElse :=
  fun s _ ovf skip h => step_reflag h ovf skip s.statusReads

/-- Settles O45: a PROCESS adds at the end, and a pass, DISCARD or RESET drops at the front. -/
theorem validBytesStayInArrivalOrder : Obligations.ValidBytesStayInArrivalOrder := by
  intro s t hs h
  have dropped {u : State} (hu : u.valid = []) : ∃ n, u.valid = s.valid.drop n :=
    ⟨s.valid.length, by rw [hu, List.drop_length]⟩
  cases step_next h with
  | called c cs i _ _ hd hx =>
    obtain ⟨r, rfl⟩ := exec_isUnpack hx (decodeCall_isUnpack hd)
    exact .inl rfl
  | emptied => exact .inr (.inr (dropped (State.valid_of_empty rfl rfl)))
  | examined bs p i _ hc hb hv hf _ _ =>
    obtain ⟨c, d, tail, he⟩ := exists_examines hc hb hv hf
    exact (hs.valid_of_examined he h).imp_right fun hp => .inr ⟨p, hp⟩
  | accepted r rs _ hc hb hr hx =>
    have hs' := hs.with_requests rs
    obtain ⟨-, ⟨-, rfl⟩ | ⟨data, rfl, -, rfl⟩ | ⟨-, rfl⟩⟩ := accept_next hx
    · exact .inr (.inr (dropped (State.valid_of_empty rfl rfl)))
    · exact .inr (.inl ⟨data, rs, _, hc, hb, hr, hs'.valid_startProcess data⟩)
    · exact .inl rfl
  | waited => exact .inl rfl

/-- Settles O35: by its definition, the buffer of no cells holding no byte. -/
theorem resetStateIsEmpty : Obligations.ResetStateIsEmpty :=
  fun _ => ⟨rfl, rfl, rfl, State.valid_of_empty rfl rfl, rfl, rfl, rfl⟩

/-- Settles O41: the reset state is an empty, idle block. -/
theorem resetMeetsTheInvariant : Obligations.ResetMeetsTheInvariant :=
  ⟨fun _ hcap => .of_empty hcap rfl rfl rfl rfl, .of_empty (by decide) rfl rfl rfl rfl⟩

end Sys2Proof.Machine

/-!
PROOFS. The memory operations (20_memory.md): FindCmd, the append of a PROCESS, and COMPACT.
-/

namespace Sys2Proof.Machine

/-! ## FindCmd -/

theorem firstCmd_eq_findIdx? (bs : List Byte) : firstCmd bs = bs.findIdx? isCommand := by
  induction bs with
  | nil => rfl
  | cons b bs ih => rw [firstCmd, List.findIdx?_cons, ih]

theorem findCmd_eq_none_iff (bs : List Byte) (i : Nat) :
    findCmd bs i = none ↔ ∀ (k : Nat) (b : Byte), i ≤ k → bs[k]? = some b → isCommand b = false := by
  rw [findCmd, Option.map_eq_none_iff, firstCmd_eq_findIdx?, List.findIdx?_eq_none_iff]
  constructor
  · intro h k b hik hb
    obtain ⟨q, rfl⟩ := Nat.exists_eq_add_of_le hik
    exact h b (List.mem_of_getElem? (List.getElem?_drop.trans hb))
  · intro h b hb
    obtain ⟨q, hq⟩ := List.mem_iff_getElem?.1 hb
    exact h (i + q) b (Nat.le_add_right i q) (List.getElem?_drop.symm.trans hq)

/-- The command byte that FindCmd finds stands `q` places above the index it starts at, and only data bytes between. -/
theorem findCmd_eq_some_add_iff (bs : List Byte) (i q : Nat) :
    findCmd bs i = some (i + q) ↔ (∃ b, bs[i + q]? = some b ∧ isCommand b = true) ∧
      ∀ (k : Nat) (b : Byte), k < q → bs[i + k]? = some b → isCommand b = false := by
  have hshift : findCmd bs i = some (i + q) ↔ firstCmd (bs.drop i) = some q := by
    simp [findCmd, Option.map_eq_some_iff, Nat.add_comm i]
  rw [hshift, firstCmd_eq_findIdx?, List.findIdx?_eq_some_iff_getElem]
  simp only [← List.getElem?_drop, List.getElem?_eq_some_iff]
  constructor
  · rintro ⟨hq, hc, hd⟩
    refine ⟨⟨_, ⟨hq, rfl⟩, hc⟩, ?_⟩
    rintro k b hk ⟨-, rfl⟩
    exact Bool.eq_false_iff.2 (hd k hk)
  · rintro ⟨⟨b, ⟨hq, rfl⟩, hc⟩, hd⟩
    exact ⟨hq, hc, fun k hk => Bool.eq_false_iff.1 (hd k _ hk ⟨hk.trans hq, rfl⟩)⟩

/-- FindCmd finds the least index of a command byte from `i` on (R28). -/
theorem findCmd_eq_some_iff (bs : List Byte) (i j : Nat) :
    findCmd bs i = some j ↔ i ≤ j ∧ (∃ b, bs[j]? = some b ∧ isCommand b = true) ∧
      ∀ (k : Nat) (b : Byte), i ≤ k → k < j → bs[k]? = some b → isCommand b = false := by
  constructor
  · intro h
    obtain ⟨hij, -⟩ := findCmd_some h
    obtain ⟨q, rfl⟩ := Nat.exists_eq_add_of_le hij
    obtain ⟨hc, hd⟩ := (findCmd_eq_some_add_iff bs i q).1 h
    refine ⟨hij, hc, fun k b hik hk hb => ?_⟩
    obtain ⟨r, rfl⟩ := Nat.exists_eq_add_of_le hik
    exact hd r b (by omega) hb
  · rintro ⟨hij, hc, hd⟩
    obtain ⟨q, rfl⟩ := Nat.exists_eq_add_of_le hij
    exact (findCmd_eq_some_add_iff bs i q).2 ⟨hc, fun k b hk hb => hd (i + k) b (by omega) (by omega) hb⟩

/-! ## APPEND -/

/-- APPEND writes the bytes that fit from `count` on, and no other cell (R26). -/
theorem State.read_append (s : State) (data : List Byte) (a : Nat) :
    (s.append data).mem.read a =
      if s.count ≤ a ∧ a < s.count + s.room data.length then data[a - s.count]? else s.mem.read a := by
  have hlen : (data.take (s.room data.length)).length = s.room data.length :=
    List.length_take_of_le (Nat.min_le_left _ _)
  rw [State.append_mem, Memory.read_writeRun, hlen]
  split
  · rw [List.getElem?_take_of_lt (by omega)]
  · rfl

/-! ## COMPACT -/

theorem State.read_compact (s : State) {i a : Nat} (h : a < s.count - i) :
    (s.compact i).mem.read a = s.mem.read (i + a) := by
  rw [State.compact_mem, Memory.read_moveDown, if_pos (by omega)]

/-- COMPACT(0) changes nothing where the cells below `count`, and no others, hold a value (R30). -/
theorem State.compact_zero {s : State} (h : s.mem.map Prod.fst = List.range s.count) : s.compact 0 = s := by
  have hm : s.mem.moveDown 0 s.count = s.mem :=
    (State.compact_buffer h 0).1.trans (State.buffer_of_cells h).2.1.symm
  rw [State.compact, hm, Nat.sub_zero]

/-! ## The statements -/

/-- Settles O13, the command byte being the byte with bit 7 set. -/
theorem findCmdIsTheLeastCommandByte : Obligations.FindCmdIsTheLeastCommandByte :=
  fun bs i _ => ⟨findCmd_eq_some_iff bs i, findCmd_eq_none_iff bs i⟩

/-- Settles O31: the state after the acceptance is that of APPEND, with the cursor at 0 and the loop running. -/
theorem processAppendsWhatFits : Obligations.ProcessAppendsWhatFits := by
  rintro s data n hb hi hd rfl
  refine ⟨_, accept_process hb hi data, ?_⟩
  rw [State.startProcess_of_ne_nil s hd]
  exact ⟨rfl, rfl, rfl, s.read_append data, rfl, rfl, rfl, rfl, rfl, rfl, rfl⟩

/-- Settles O33, by where COMPACT takes each byte from. -/
theorem compactShiftsTheUnconsumedRegion : Obligations.CompactShiftsTheUnconsumedRegion :=
  fun s _ _ => ⟨rfl, fun _ => s.read_compact, State.compact_zero, rfl, rfl, rfl⟩

end Sys2Proof.Machine

/-!
PROOFS. The encoding of the byte stream (30_encoding.md): the channel rows by `channelOf`, the sysex rows by `decodeSub`,
the calls of the unpacker, the two round trips, and the tables `Need` and `Class` as ranges.
-/

namespace Sys2Proof.Machine

/-! ## The bits of a command byte -/

/-- The bytes with one high nibble are a range. -/
theorem nibble_iff_range : ∀ (n : BitVec 4) (c : Byte),
    c &&& 0xF0#8 = n ++ 0x0#4 ↔ 16 * n.toNat ≤ c.toNat ∧ c.toNat ≤ 16 * n.toNat + 15 := by
  decide +kernel

theorem eq_nibble_append (n : BitVec 4) {c : Byte} (h : 16 * n.toNat ≤ c.toNat ∧ c.toNat ≤ 16 * n.toNat + 15) :
    c = n ++ c.setWidth 4 :=
  (nibble_append n c ((nibble_iff_range n c).2 h)).symm

theorem eq_septet_append (n : BitVec 7) {c : Byte} (h : c = n ++ 0#1 ∨ c = n ++ 1#1) : c = n ++ c.setWidth 1 := by
  rcases h with rfl | rfl <;> revert n <;> decide

theorem nibble_mask : ∀ n ch : BitVec 4, (n ++ ch) &&& 0xF0#8 = n ++ 0x0#4 := by decide

theorem nibble_low : ∀ n ch : BitVec 4, (n ++ ch).setWidth 4 = ch := by decide

theorem nibble_command : ∀ n ch : BitVec 4, 8 ≤ n.toNat → n.toNat < 15 →
    isCommand (n ++ ch) = true ∧ n ++ ch ≠ 0xF0#8 := by
  decide

theorem septet_command : ∀ (n : BitVec 7) (low : BitVec 1), 0x78 < n.toNat →
    isCommand (n ++ low) = true ∧ n ++ low ≠ 0xF0#8 := by
  decide

/-! ## Channel messages -/

theorem command_of_channelOf {i : Instr} {c : Byte} {sp : Span} (h : channelOf i = some (c, sp)) :
    isCommand c = true ∧ c ≠ 0xF0#8 := by
  cases i with
  | unassigned8x ch _ | digitalUpdate ch _ | unassignedAx ch _ | unassignedBx ch _ | analogStreamToggle ch _
  | digitalStreamToggle ch _ | analogUpdate ch _ => cases h; exact nibble_command _ ch (by decide) (by decide)
  | unassignedF2 low _ | unassignedFA low _ | unassignedFC low _ => cases h; exact septet_command _ low (by decide)
  | unassignedF1 _ | setPinMode _ | setDigitalPin _ | unassignedF6 _ | sysexEnd _ | unassignedF8 _ | protocolVersion _
  | unassignedFE _ | systemReset _ => cases h; decide
  | _ => cases h

/-- The row that a command byte decodes to is the one it encodes (R49). -/
theorem decodeChannel_iff {i : Instr} {c : Byte} {sp : Span} :
    decodeChannel c sp = .ok i ↔ channelOf i = some (c, sp) := by
  constructor
  · intro h
    have nibble (n : BitVec 4) (hn : c &&& 0xF0#8 = n ++ 0x0#4) : some (n ++ c.setWidth 4, sp) = some (c, sp) := by
      rw [nibble_append n c hn]
    have septet (n : BitVec 7) (hn : c &&& 0xFE#8 = n ++ 0x0#1) : some (n ++ c.setWidth 1, sp) = some (c, sp) := by
      rw [septet_append n c hn]
    -- In the table's order: seven rows fix the high nibble, 0xF2, 0xFA and 0xFC the upper seven bits, the others the byte.
    rcases decodeChannel_rows h with ⟨hn, rfl⟩ | ⟨hn, rfl⟩ | ⟨hn, rfl⟩ | ⟨hn, rfl⟩ | ⟨hn, rfl⟩ | ⟨hn, rfl⟩ | ⟨hn, rfl⟩ |
      ⟨rfl, rfl⟩ | ⟨hn, rfl⟩ | ⟨rfl, rfl⟩ | ⟨rfl, rfl⟩ | ⟨rfl, rfl⟩ | ⟨rfl, rfl⟩ | ⟨rfl, rfl⟩ | ⟨rfl, rfl⟩ | ⟨hn, rfl⟩ |
      ⟨hn, rfl⟩ | ⟨rfl, rfl⟩ | ⟨rfl, rfl⟩
    iterate 7 exact nibble _ hn
    · rfl
    · exact septet _ hn
    iterate 6 rfl
    iterate 2 exact septet _ hn
    iterate 2 rfl
  · intro h
    cases i with
    | unassigned8x ch _ | digitalUpdate ch _ | unassignedAx ch _ | unassignedBx ch _ | analogStreamToggle ch _
    | digitalStreamToggle ch _ | analogUpdate ch _ =>
      cases h
      simp only [decodeChannel, nibble_mask, nibble_low]
      rfl
    | unassignedF2 low _ | unassignedFA low _ | unassignedFC low _ =>
      cases h
      obtain rfl | rfl := (by decide : ∀ b : BitVec 1, b = 0 ∨ b = 1) low <;> rfl
    | unassignedF1 _ | setPinMode _ | setDigitalPin _ | unassignedF6 _ | sysexEnd _ | unassignedF8 _
    | protocolVersion _ | unassignedFE _ | systemReset _ => cases h; rfl
    | _ => cases h

/-- A stream whose first byte and span are a row's decodes to that row. -/
theorem decodeStream_of_channelOf {i : Instr} {b c : Byte} {rest : List Byte}
    (h : channelOf i = some (b, ⟨dataPrefix rest, !(afterData rest).isEmpty⟩)) (hb : c = b) :
    decodeStream (c :: rest) = .ok i := by
  subst hb
  obtain ⟨hc, h0⟩ := command_of_channelOf h
  exact (decodeStream_channel rest hc h0).trans (decodeChannel_iff.2 h)

/-- A channel row's encoding, and what the table asks of it: no operand is excluded, and its span alone says what may
follow. -/
theorem encode_of_channelOf {i : Instr} {c : Byte} {sp : Span} (h : channelOf i = some (c, sp)) :
    encode i = .stream (channelBytes c sp) ∧ i.wf = true ∧ ∀ rest, i.mayPrecede rest = endsOrCloses sp.closed rest := by
  cases i with
  | unassigned8x _ _ | digitalUpdate _ _ | unassignedAx _ _ | unassignedBx _ _ | analogStreamToggle _ _
  | digitalStreamToggle _ _ | analogUpdate _ _ | unassignedF1 _ | unassignedF2 _ _ | setPinMode _ | setDigitalPin _
  | unassignedF6 _ | sysexEnd _ | unassignedF8 _ | protocolVersion _ | unassignedFA _ _ | unassignedFC _ _
  | unassignedFE _ | systemReset _ => cases h; exact ⟨rfl, rfl, fun _ => rfl⟩
  | _ => cases h

theorem endsOrCloses_iff {closed : Bool} {rest : List Byte} :
    endsOrCloses closed rest = true ↔ StopsData rest ∧ closed = !rest.isEmpty := by
  cases rest with
  | nil => simp [endsOrCloses, stopsData_nil]
  | cons e r =>
    have hstops : StopsData (e :: r) ↔ isCommand e = true := ⟨fun h => h e r rfl, stopsData_cons r⟩
    simp [endsOrCloses, hstops, and_comm]

theorem decode_encode_channel {i : Instr} {c : Byte} {sp : Span} {rest : List Byte} (hi : channelOf i = some (c, sp))
    (h : i.mayPrecede rest = true) : decode ((encode i).andThen rest) = .ok i := by
  obtain ⟨he, -, hm⟩ := encode_of_channelOf hi
  obtain ⟨hstops, hclosed⟩ := endsOrCloses_iff.1 ((hm rest).symm.trans h)
  rw [he]
  refine decodeStream_of_channelOf (rest := sp.data.map byteOf ++ rest) ?_ rfl
  rw [dataPrefix_append _ hstops, afterData_append _ hstops, ← hclosed]
  exact hi

/-! ## Sysex messages -/

theorem decodeStream_span (d : List Group) {rest : List Byte} (h : StopsData rest) :
    decodeStream (0xF0#8 :: (d.map byteOf ++ rest)) = .ok (decodeSysex d rest) := by
  rw [decodeStream_sysex, dataPrefix_append d h, afterData_append d h]

theorem decodeSysex_unterminated (d : List Group) {e : Byte} (r : List Byte) (h : e ≠ 0xF7#8) :
    decodeSysex d (e :: r) = .sysexStart (.unterminated d) :=
  if_neg h

theorem decodeStream_sysexBytes (sub : Group) (p : List Group) (rest : List Byte) :
    decodeStream (sysexBytes sub p ++ rest) = .ok (decodeSub sub p) := by
  have h : decodeStream (0xF0#8 :: ((sub :: p).map byteOf ++ 0xF7#8 :: rest)) = .ok (decodeSub sub p) :=
    decodeStream_span (sub :: p) (stopsData_cons rest rfl)
  simpa [sysexBytes] using h

/-- A subcommand row's encoding, and what the table asks of it. -/
theorem encode_decodeSub (sub : Group) (p : List Group) :
    encode (decodeSub sub p) = .stream (sysexBytes sub p) ∧ (decodeSub sub p).wf = true ∧
      ∀ rest, (decodeSub sub p).mayPrecede rest = true := by
  unfold decodeSub
  split_ifs
  case neg => exact ⟨rfl, by simp [Instr.wf, assignedSubs, *], fun _ => rfl⟩
  all_goals subst sub; exact ⟨rfl, rfl, fun _ => rfl⟩

/-- A subcommand without a row of its own is SX_OTHER's (R120). -/
theorem decodeSub_of_wf {sub : Group} {p : List Group} (h : (Instr.sxOther sub p).wf = true) :
    decodeSub sub p = .sxOther sub p := by
  simp only [Instr.wf, assignedSubs, List.contains_cons, List.contains_nil, Bool.not_eq_true', Bool.or_eq_false_iff,
    beq_eq_false_iff_ne] at h
  simp [decodeSub, h]

theorem decode_encode_sysexStart {f : SysexForm} {rest : List Byte} (h : (Instr.sysexStart f).mayPrecede rest = true) :
    decode ((encode (.sysexStart f)).andThen rest) = .ok (.sysexStart f) := by
  cases f with
  | unfinished d =>
    obtain rfl := List.isEmpty_iff.1 h
    exact decodeStream_span d stopsData_nil
  | unterminated d =>
    simp only [Instr.mayPrecede, Bool.and_eq_true, decide_eq_true_eq, endsOrCloses_iff] at h
    obtain ⟨⟨hstops, hne⟩, h7⟩ := h
    cases rest with
    | nil => cases hne
    | cons e r =>
      have he : e ≠ 0xF7#8 := fun he => h7 (congrArg some he)
      exact (decodeStream_span d hstops).trans (congrArg Except.ok (decodeSysex_unterminated d r he))
  | empty => rfl

/-! ## Calls of the unpacker -/

theorem groupOf_comp_byteOf : groupOf ∘ byteOf = id := funext groupOf_byteOf

theorem decode_encode_unpack {i : Instr} (h : isUnpack i = true) (rest : List Byte) :
    decode ((encode i).andThen rest) = .ok i := by
  cases i with
  | u14 _ _ | s14 _ _ | u21 _ _ _ | u32 _ _ _ _ _ | s32 _ _ _ _ _ | pair _ =>
    simp [encode, Code.andThen, decode, decodeCall, groupOf_comp_byteOf]
  | _ => cases h

/-- A call with another number of groups than its operation takes is no operation (R131). -/
theorem decodeCall_groupCount {op : BitVec 3} {lanes : List Byte} (hop : op.toNat < 5)
    (h : lanes.length ≠ groupsOf op) : decodeCall op lanes = .error (.groupCount op lanes.length) := by
  have h5 : op ≠ 5 := by rintro rfl; exact absurd hop (by decide)
  have h67 : ¬(op = 6 ∨ op = 7) := by rintro (rfl | rfl) <;> exact absurd hop (by decide)
  rw [decodeCall, if_neg h5, if_neg h67, ← lanes.length_map groupOf]
  rw [← lanes.length_map groupOf] at h
  generalize lanes.map groupOf = gs at h
  have hne (k : BitVec 3) (hk : gs.length = groupsOf k) : op ≠ k := by rintro rfl; exact h hk
  split
  case h_1 => rw [if_neg (hne 0 rfl), if_neg (hne 1 rfl)]; rfl
  case h_2 => rw [if_neg (hne 2 rfl)]; rfl
  case h_3 => rw [if_neg (hne 3 rfl), if_neg (hne 4 rfl)]; rfl
  case h_4 => rfl

/-! ## The two round trips -/

/-- Decoding an encoding, row by row (R43, R44, R56). -/
theorem decode_encode {i : Instr} {rest : List Byte} (hwf : i.wf = true) (h : i.mayPrecede rest = true) :
    decode ((encode i).andThen rest) = .ok i := by
  cases i with
  | unassigned8x _ _ | digitalUpdate _ _ | unassignedAx _ _ | unassignedBx _ _ | analogStreamToggle _ _
  | digitalStreamToggle _ _ | analogUpdate _ _ | unassignedF1 _ | unassignedF2 _ _ | setPinMode _ | setDigitalPin _
  | unassignedF6 _ | sysexEnd _ | unassignedF8 _ | protocolVersion _ | unassignedFA _ _ | unassignedFC _ _
  | unassignedFE _ | systemReset _ => exact decode_encode_channel rfl h
  | sysexStart _ => exact decode_encode_sysexStart h
  | sxClearDisplay p | sxShowDisplay p | sxPlotPixel p | sxScrollString p | sxScrollInteger p | sxSetTouchMode p
  | sxReportEvent p | sxDebugString p | sxReportFirmware p => exact decodeStream_sysexBytes _ p rest
  | sxOther sub p => exact (decodeStream_sysexBytes sub p rest).trans (congrArg _ (decodeSub_of_wf hwf))
  | u14 _ _ | s14 _ _ | u21 _ _ _ | u32 _ _ _ _ _ | s32 _ _ _ _ _ | pair _ => exact decode_encode_unpack rfl rest

/-- The instruction is well formed, and its encoding with what may follow it is the stream. -/
def Reencodes (bytes : List Byte) (i : Instr) : Prop :=
  i.wf = true ∧ ∃ rest, i.mayPrecede rest = true ∧ (encode i).andThen rest = .stream bytes

theorem reencodes_channel {i : Instr} {c : Byte} {rest : List Byte}
    (h : channelOf i = some (c, ⟨dataPrefix rest, !(afterData rest).isEmpty⟩)) : Reencodes (c :: rest) i := by
  obtain ⟨he, hwf, hm⟩ := encode_of_channelOf h
  refine ⟨hwf, afterData rest, (hm _).trans (endsOrCloses_iff.2 ⟨stopsData_afterData rest, rfl⟩), ?_⟩
  rw [he, channelBytes, Code.andThen, List.cons_append, dataPrefix_append_afterData]

theorem reencodes_sysex (d : List Group) {tail : List Byte} (h : StopsData tail) :
    Reencodes (0xF0#8 :: (d.map byteOf ++ tail)) (decodeSysex d tail) := by
  cases tail with
  | nil => exact ⟨rfl, [], rfl, rfl⟩
  | cons e r =>
    by_cases h7 : e = 0xF7#8
    · subst h7
      cases d with
      | nil => exact ⟨rfl, r, rfl, rfl⟩
      | cons sub p =>
        obtain ⟨he, hwf, hm⟩ := encode_decodeSub sub p
        refine ⟨hwf, r, hm r, ?_⟩
        simp [decodeSysex, he, Code.andThen, sysexBytes]
    · rw [decodeSysex_unterminated d r h7]
      refine ⟨rfl, e :: r, ?_, rfl⟩
      simp [Instr.mayPrecede, endsOrCloses, h e r rfl, h7]

theorem reencodes_of_decodeStream {bytes : List Byte} {i : Instr} (h : decodeStream bytes = .ok i) :
    Reencodes bytes i := by
  cases bytes with
  | nil => cases h
  | cons c rest =>
    by_cases hc : isCommand c = true
    · by_cases h0 : c = 0xF0#8
      · subst h0
        obtain rfl := Except.ok.inj ((decodeStream_sysex rest).symm.trans h)
        have hs := reencodes_sysex (dataPrefix rest) (stopsData_afterData rest)
        rwa [dataPrefix_append_afterData] at hs
      · exact reencodes_channel (decodeChannel_iff.1 ((decodeStream_channel rest hc h0).symm.trans h))
    · rw [decodeStream, if_neg hc] at h
      cases h

/-! ## The tables of 30_encoding.md -/

theorem streamToggle_iff_range (c : Byte) :
    c &&& 0xF0#8 = 0xC0#8 ∨ c &&& 0xF0#8 = 0xD0#8 ↔ 0xC0 ≤ c.toNat ∧ c.toNat ≤ 0xDF := by
  have hC : c &&& 0xF0#8 = 0xC0#8 ↔ 0xC0 ≤ c.toNat ∧ c.toNat ≤ 0xCF := nibble_iff_range 0xC c
  have hD : c &&& 0xF0#8 = 0xD0#8 ↔ 0xD0 ≤ c.toNat ∧ c.toNat ≤ 0xDF := nibble_iff_range 0xD c
  rw [hC, hD]
  omega

/-- `Need(c)`, its tests as ranges. -/
theorem need_eq (c : Byte) :
    need c = if c = 0xFF#8 then 0 else if 0xC0 ≤ c.toNat ∧ c.toNat ≤ 0xDF then 1 else 2 := by
  simp only [need, streamToggle_iff_range]

/-- `Class(c)`, its tests as ranges. -/
theorem classOf_eq (c : Byte) :
    classOf c =
      if 0x90 ≤ c.toNat ∧ c.toNat ≤ 0x9F then .digitalUpdate
      else if 0xE0 ≤ c.toNat ∧ c.toNat ≤ 0xEF then .analogUpdate
      else if c = 0xF9#8 then .protocolVersion
      else if 0xC0 ≤ c.toNat ∧ c.toNat ≤ 0xDF then .streamToggle
      else if c = 0xF4#8 then .pinMode
      else if c = 0xFF#8 then .reset
      else .other := by
  have h9 : c &&& 0xF0#8 = 0x90#8 ↔ 0x90 ≤ c.toNat ∧ c.toNat ≤ 0x9F := nibble_iff_range 0x9 c
  have hE : c &&& 0xF0#8 = 0xE0#8 ↔ 0xE0 ≤ c.toNat ∧ c.toNat ≤ 0xEF := nibble_iff_range 0xE c
  simp only [classOf, h9, hE, streamToggle_iff_range]

/-! ## The statements -/

/-- Settles O5: the encoder writes a channel row as `channelOf` says, a sysex row as `decodeSub` reads it. -/
theorem decodingAnEncodingGivesItBack : Obligations.DecodingAnEncodingGivesItBack :=
  fun _ _ => decode_encode

/-- Settles O6: a stream is its command byte, its span and what follows, and no part of it is lost. -/
theorem decodedInstructionReencodesToItsBytes : Obligations.DecodedInstructionReencodesToItsBytes :=
  fun _ _ => reencodes_of_decodeStream

/-- Settles O2: a byte of a row's range is that row's high bits followed by its own low bits. -/
theorem commandBytesFallInTheirRows : Obligations.CommandBytesFallInTheirRows := by
  rintro c rest sp rfl
  have row {i : Instr} {b : Byte} (h : channelOf i = some (b, ⟨dataPrefix rest, !(afterData rest).isEmpty⟩)) :
      c = b → decodeStream (c :: rest) = .ok i := decodeStream_of_channelOf h
  exact ⟨fun h => row rfl (eq_nibble_append 0x8 h), fun h => row rfl (eq_nibble_append 0x9 h),
    fun h => row rfl (eq_nibble_append 0xA h), fun h => row rfl (eq_nibble_append 0xB h),
    fun h => row rfl (eq_nibble_append 0xC h), fun h => row rfl (eq_nibble_append 0xD h),
    fun h => row rfl (eq_nibble_append 0xE h), row rfl, fun h => row rfl (eq_septet_append 0b1111001 h), row rfl,
    row rfl, row rfl, row rfl, row rfl, row rfl, fun h => row rfl (eq_septet_append 0b1111101 h),
    fun h => row rfl (eq_septet_append 0b1111110 h), row rfl, row rfl⟩

/-- Settles O4: each select code by computation, and the wrong group counts by the shape of the lanes. -/
theorem unpackerCallsDecodeBySelectCode : Obligations.UnpackerCallsDecodeBySelectCode := by
  refine ⟨fun _ _ => rfl, fun _ _ => rfl, fun _ _ _ => rfl, fun _ _ _ _ _ => rfl, fun _ _ _ _ _ => rfl, fun _ => rfl,
    ?_, ?_⟩
  · rintro op bs (rfl | rfl) <;> rfl
  · rintro op bs (⟨rfl | rfl, hl⟩ | ⟨rfl, hl⟩ | ⟨rfl | rfl, hl⟩) <;> exact decodeCall_groupCount (by decide) hl

/-- Settles O1: the words are closed, and the decoder computes. -/
theorem writtenOutWordsDecode : Obligations.WrittenOutWordsDecode := by
  unfold Obligations.WrittenOutWordsDecode
  decide

/-- Settles O7, by the tests of `Need` as ranges. -/
theorem requiredArgumentCounts : Obligations.RequiredArgumentCounts := by
  intro c _ _
  rw [need_eq]
  refine ⟨fun h => ?_, fun h => ?_, fun ⟨hne, h⟩ => ?_⟩
  · rw [if_pos h]
  · rw [if_neg (by bv_omega), if_pos h]
  · rw [if_neg hne, if_neg h]

/-- Settles O8, by the tests of `Class` as ranges. -/
theorem messageClasses : Obligations.MessageClasses := by
  intro c _ _
  rw [classOf_eq]
  refine ⟨fun h => ?_, fun h => ?_, ?_, fun h => ?_, ?_, ?_, fun h => ?_⟩
  · rw [if_pos h]
  · rw [if_neg (by bv_omega), if_pos h]
  · rintro rfl; rfl
  · iterate 3 rw [if_neg (by bv_omega)]
    rw [if_pos h]
  · rintro rfl; rfl
  · rintro rfl; rfl
  · iterate 6 rw [if_neg (by bv_omega)]

end Sys2Proof.Machine

/-!
PROOFS. The framer's loop (40_framer_loop.md). The head of a stream that begins with a command byte is framed, or the
stream is one open, incomplete segment. The segment view (R74), the pass of the loop (R78) and the bytes of a later chunk
(R75) are each described over these two cases; a PROCESS is then an induction over the passes, and chunk-invariance an
induction over the chunks.
-/

namespace Sys2Proof.Machine

/-! ## The head of a stream -/

/-- The head of a stream is framed (R70, R71, R106): the messages that come of it, whether a sysex is skipped, and the
stream that is left to scan. -/
inductive Framed : List Byte → List Message → Bool → List Byte → Prop where
  /-- A channel segment that is closed, or open and complete. -/
  | channel (c : Byte) (d : List Group) (tail : List Byte) (hc : isCommand c = true) (h0 : c ≠ 0xF0#8)
      (hs : StopsData tail) (hn : tail ≠ [] ∨ need c ≤ d.length) :
      Framed (c :: (d.map byteOf ++ tail)) [.ch (channelMessage c d)] false tail
  /-- A sysex that is closed by 0xF7. -/
  | sysex (d : List Group) (r : List Byte) :
      Framed (0xF0#8 :: (d.map byteOf ++ 0xF7#8 :: r)) (sysexMessages d) false r
  /-- A sysex that is closed by another byte than 0xF7. -/
  | skip (d : List Group) (e : Byte) (r : List Byte) (he : isCommand e = true) (h7 : e ≠ 0xF7#8) :
      Framed (0xF0#8 :: (d.map byteOf ++ e :: r)) [] true (e :: r)

theorem Framed.length_lt {bs rest : List Byte} {ms : List Message} {sk : Bool} (h : Framed bs ms sk rest) :
    rest.length < bs.length := by
  cases h with
  | channel | sysex | skip => simp only [List.length_cons, List.length_append]; omega

/-- The head of a stream is framed, or it is an open, incomplete segment (R66, R67, R69). -/
theorem framed_or_open {c : Byte} (d : List Group) {tail : List Byte} (hc : isCommand c = true) (hs : StopsData tail) :
    (∃ ms sk rest, Framed (c :: (d.map byteOf ++ tail)) ms sk rest) ∨
      tail = [] ∧ (c = 0xF0#8 ∨ d.length < need c) := by
  by_cases h0 : c = 0xF0#8
  · subst h0
    cases tail with
    | nil => exact .inr ⟨rfl, .inl rfl⟩
    | cons e r =>
      by_cases h7 : e = 0xF7#8
      · subst h7; exact .inl ⟨_, _, _, .sysex d r⟩
      · exact .inl ⟨_, _, _, .skip d e r (hs e r rfl) h7⟩
  · by_cases hn : tail ≠ [] ∨ need c ≤ d.length
    · exact .inl ⟨_, _, _, .channel c d tail hc h0 hs hn⟩
    · simp only [not_or, not_not, not_le] at hn
      exact .inr ⟨hn.1, .inr hn.2⟩

/-! ## The segment view of a stream -/

/-- The view of a stream whose head gave the messages `ms` and the skip `sk`, from the view `v` of what is left. -/
def View.after (ms : List Message) (sk : Bool) (v : View) : View := ⟨ms ++ v.msgs, v.rest, sk || v.skip⟩

theorem View.after_after (ms ms' : List Message) (sk sk' : Bool) (v : View) :
    (v.after ms' sk').after ms sk = v.after (ms ++ ms') (sk || sk') := by
  simp [View.after, Bool.or_assoc]

theorem segmentView_afterData (bs : List Byte) : segmentView (afterData bs) = segmentView bs := by
  conv_rhs => rw [← dataPrefix_append_afterData bs, segmentView_data]

theorem segmentView_cons {e : Byte} (r : List Byte) (he : isCommand e = true) :
    segmentView (e :: r) = viewSegments (⟨e, dataPrefix r⟩ :: (splitStream (afterData r)).2) := by
  conv_lhs => rw [← dataPrefix_append_afterData r, segmentView_command he _ (stopsData_afterData r)]

/-- The view of a segment that another command byte closes, by the segment that byte begins. -/
theorem segmentView_closed {c e : Byte} (d : List Group) (r : List Byte) (hc : isCommand c = true)
    (he : isCommand e = true) :
    segmentView (c :: (d.map byteOf ++ e :: r)) =
      viewSegments (⟨c, d⟩ :: ⟨e, dataPrefix r⟩ :: (splitStream (afterData r)).2) := by
  rw [segmentView_command hc d (stopsData_cons r he)]
  conv_lhs => rw [← dataPrefix_append_afterData r, splitStream_command he _ (stopsData_afterData r)]

/-- The view of an open segment. -/
theorem segmentView_single {c : Byte} (d : List Group) (hc : isCommand c = true) :
    segmentView (c :: d.map byteOf) = viewSegments [⟨c, d⟩] := by
  simpa [splitStream] using segmentView_command hc d stopsData_nil

/-- A framed head adds its messages and its skip to the view of what is left (R74, cases (a), (b), (c), (e)). -/
theorem Framed.segmentView_eq {bs rest : List Byte} {ms : List Message} {sk : Bool} (h : Framed bs ms sk rest) :
    segmentView bs = (segmentView rest).after ms sk := by
  cases h with
  | channel c d tail hc h0 hs hn =>
    cases rest with
    | nil =>
      have hn : need c ≤ d.length := hn.resolve_left (· rfl)
      rw [List.append_nil, segmentView_single d hc]
      simp [viewSegments, h0, hn, View.after, segmentView, splitStream]
    | cons e r =>
      have he := hs e r rfl
      rw [segmentView_closed d r hc he, segmentView_cons r he]
      simp [viewSegments, h0, View.after]
  | sysex d r =>
    have hrest : viewSegments (splitStream (afterData rest)).2 = segmentView rest := segmentView_afterData rest
    rw [segmentView_closed d rest rfl rfl]
    simp [viewSegments, hrest, View.after]
  | skip d e r he h7 =>
    rw [segmentView_closed d r rfl he, segmentView_cons r he]
    simp [viewSegments, h7, View.after]

/-- An open, incomplete segment is retained as it stands (R74, cases (d), (f)). -/
theorem segmentView_of_open {c : Byte} {d : List Group} (hc : isCommand c = true)
    (h : c = 0xF0#8 ∨ d.length < need c) : segmentView (c :: d.map byteOf) = ⟨[], c :: d.map byteOf, false⟩ := by
  rw [segmentView_single d hc]
  by_cases h0 : c = 0xF0#8
  · simp [viewSegments, h0, Segment.bytes]
  · have hn : ¬need c ≤ d.length := by simpa [h0] using h
    simp [viewSegments, h0, hn, Segment.bytes]

/-- What the invariant lets an idle block hold is its own segment view (R19). -/
theorem segmentView_of_headIncomplete {bs : List Byte} (h : headIncomplete bs = true) :
    segmentView bs = ⟨[], bs, false⟩ := by
  cases bs with
  | nil => rfl
  | cons c rest =>
    simp only [headIncomplete, Bool.and_eq_true, Bool.or_eq_true, decide_eq_true_eq, List.all_eq_true,
      Bool.not_eq_true'] at h
    obtain ⟨⟨hc, hdata⟩, hopen⟩ := h
    have hrest : (rest.map groupOf).map byteOf = rest := by
      rw [List.map_map]
      exact (List.map_congr_left fun b hb => byteOf_groupOf (hdata b hb)).trans (List.map_id rest)
    have hview := segmentView_of_open (d := rest.map groupOf) hc (by simpa using hopen)
    rwa [hrest] at hview

/-! ## A later chunk -/

/-- Data bytes beyond the required arguments do not show in a message (R53). -/
theorem channelMessage_append {c : Byte} {d : List Group} (d' : List Group) (h : need c ≤ d.length) :
    channelMessage c (d ++ d') = channelMessage c d := by
  have hmin : min (d ++ d').length (need c) = min d.length (need c) := by
    rw [List.length_append]; omega
  have harg (i : Nat) : argument (d ++ d') (min d.length (need c)) i = argument d (min d.length (need c)) i := by
    unfold argument
    split
    · rw [List.getD_append _ _ _ _ (by omega)]
    · rfl
  simp only [channelMessage, hmin, harg]

/-- With further bytes after the stream its head is framed to the same messages; what is left differs at most in the data
bytes that the framed span takes up (R75). -/
theorem Framed.append {bs rest : List Byte} {ms : List Message} {sk : Bool} (h : Framed bs ms sk rest)
    (more : List Byte) :
    ∃ rest', Framed (bs ++ more) ms sk rest' ∧ segmentView rest' = segmentView (rest ++ more) := by
  cases h with
  | channel c d tail hc h0 hs hn =>
    cases rest with
    | nil =>
      have hn : need c ≤ d.length := hn.resolve_left (· rfl)
      refine ⟨afterData more, ?_, segmentView_afterData more⟩
      have hf := Framed.channel c (d ++ dataPrefix more) (afterData more) hc h0 (stopsData_afterData more)
        (.inr (by rw [List.length_append]; omega))
      simpa [channelMessage_append _ hn, dataPrefix_append_afterData] using hf
    | cons e r =>
      refine ⟨e :: r ++ more, ?_, rfl⟩
      simpa using Framed.channel c d (e :: (r ++ more)) hc h0 (stopsData_cons _ (hs e r rfl)) (.inl nofun)
  | sysex d r => exact ⟨rest ++ more, by simpa using Framed.sysex d (rest ++ more), rfl⟩
  | skip d e r he h7 => exact ⟨e :: r ++ more, by simpa using Framed.skip d e (r ++ more) he h7, rfl⟩

/-- The view of a stream that comes in two parts: that of the first part, then that of what it leaves with the second part
after it (R75). -/
theorem segmentView_append (bs more : List Byte) :
    segmentView (bs ++ more) =
      (segmentView ((segmentView bs).rest ++ more)).after (segmentView bs).msgs (segmentView bs).skip := by
  induction hl : bs.length using Nat.strong_induction_on generalizing bs with
  | _ n ih =>
    subst hl
    have hlead : segmentView (bs ++ more) = segmentView (afterData bs ++ more) := by
      conv_lhs => rw [← dataPrefix_append_afterData bs, List.append_assoc, segmentView_data]
    rw [hlead, ← segmentView_afterData bs]
    cases ha : afterData bs with
    | nil => rfl
    | cons c r =>
      have hc := afterData_head ha
      rcases framed_or_open (dataPrefix r) hc (stopsData_afterData r) with ⟨ms, sk, rest, hf⟩ | ⟨hr, hopen⟩
      · rw [dataPrefix_append_afterData] at hf
        have hle : (afterData bs).length ≤ bs.length := by rw [afterData_eq_drop, List.length_drop]; omega
        have hlt : rest.length < bs.length := hf.length_lt.trans_le (ha ▸ hle)
        obtain ⟨rest', hf', hrest'⟩ := hf.append more
        rw [hf'.segmentView_eq, hrest', ih rest.length hlt rest rfl, View.after_after, hf.segmentView_eq]
        rfl
      · have hself : segmentView (c :: r) = ⟨[], c :: r, false⟩ := by
          have hspan : (dataPrefix r).map byteOf = r := by
            simpa [hr] using dataPrefix_append_afterData r
          simpa [hspan] using segmentView_of_open hc hopen
        rw [hself]
        rfl

/-! ## One pass of the loop -/

/-- A PROCESS is in its loop over the valid bytes `bs`, with no call of the unpacker waiting. -/
structure Scanning (s : State) (bs : List Byte) : Prop where
  calls : s.calls = []
  busy : s.busy = true
  mem : s.mem = Memory.ofBytes bs
  count : s.count = bs.length

theorem Scanning.bytes {s : State} {bs : List Byte} (h : Scanning s bs) : s.bytes? = some bs :=
  (State.valid_of_ofBytes h.mem h.count).1

/-- The state after a pass that frames the segment at `p` of `bs` and leaves the cursor at `q`. -/
def State.passed (bs : List Byte) (p q : Nat) (ms : List Message) (sk : Bool) (s : State) : State :=
  { s with lat := latchesAt bs p, cursor := q, skip := s.skip || sk, emits := s.emits ++ ms.map (⟨s.txn, ·⟩) }

/-- The state in which a PROCESS returns that makes the view `v` of its bytes. -/
def State.returned (v : View) (s : State) : State :=
  { s with mem := Memory.ofBytes v.rest, count := v.rest.length, skip := s.skip || v.skip
           emits := s.emits ++ v.msgs.map (⟨s.txn, ·⟩), busy := false, cursor := 0, lat := Latches.idle }

theorem State.returned_passed (v : View) (bs : List Byte) (p q : Nat) (ms : List Message) (sk : Bool) (s : State) :
    (s.passed bs p q ms sk).returned v = s.returned (v.after ms sk) := by
  simp [State.returned, State.passed, View.after, Bool.or_assoc]

theorem Scanning.passed {s : State} {bs : List Byte} (h : Scanning s bs) (p q : Nat) (ms : List Message) (sk : Bool) :
    Scanning (s.passed bs p q ms sk) bs :=
  ⟨h.calls, h.busy, h.mem, h.count⟩

/-- A pass that meets a framed head emits its messages and moves the cursor to what is left (R70, R71). -/
theorem Framed.step_eq {s : State} {bs rest : List Byte} {p : Nat} {ms : List Message} {sk : Bool} (hs : Scanning s bs)
    (hp : findCmd bs s.cursor = some p) (h : Framed (bs.drop p) ms sk rest) :
    ∃ q, p < q ∧ q ≤ bs.length ∧ bs.drop q = rest ∧ step s = .next (s.passed bs p q ms sk) := by
  have examines {c : Byte} {d : List Group} {tail : List Byte} (hd : bs.drop p = c :: (d.map byteOf ++ tail))
      (hc : isCommand c = true) (ht : StopsData tail) : Examines s bs p c d tail :=
    ⟨hs.calls, hs.busy, hs.bytes, hp, hd, hc, ht⟩
  generalize hd : bs.drop p = bs' at h
  cases h with
  | channel c d tail hc h0 ht hn =>
    have he := examines hd hc ht
    have hlen := he.length
    refine ⟨p + 1 + d.length, by omega, by omega, he.drop_fin, ?_⟩
    rw [he.step_channel_complete h0 hn]
    simp [State.passed, State.emit, State.advance, State.latch]
  | sysex d r =>
    have he := examines hd rfl (stopsData_cons rest rfl)
    have hlen := he.length
    have hrest : bs.drop (p + 1 + d.length + 1) = rest := by rw [← List.drop_drop, he.drop_fin]; rfl
    simp only [List.length_cons] at hlen
    refine ⟨p + 1 + d.length + 1, by omega, by omega, hrest, ?_⟩
    cases d with
    | nil =>
      rw [he.step_sysex_empty]
      simp [State.passed, State.advance, State.latch, sysexMessages]
    | cons sub payload =>
      have hq : p + 1 + (sub :: payload).length + 1 = p + payload.length + 3 := by rw [List.length_cons]; omega
      rw [he.step_sysex_message, hq]
      simp [State.passed, State.emit, State.advance, State.latch, sysexMessages]
  | skip d e r hc h7 =>
    have he := examines hd rfl (stopsData_cons r hc)
    have hlen := he.length
    refine ⟨p + 1 + d.length, by omega, by omega, he.drop_fin, ?_⟩
    rw [he.step_sysex_skip h7]
    simp [State.passed, State.raiseSkip, State.advance, State.latch]

/-- A pass that meets an open, incomplete segment retains it and returns (R68). -/
theorem Examines.step_open {s : State} {bs : List Byte} {p : Nat} {c : Byte} {d : List Group}
    (h : Examines s bs p c d []) (hopen : c = 0xF0#8 ∨ d.length < need c) :
    step s = .next ((s.latch bs p).compact p).finish := by
  by_cases h0 : c = 0xF0#8
  · subst h0; exact h.step_sysex_open
  · exact h.step_channel_incomplete h0 (hopen.resolve_left h0)

/-- A pass of the loop against the segment view of the bytes from the cursor on: it returns as the view says, or it takes
a head off the view and leaves the rest to the next pass. -/
theorem Scanning.step_view {s : State} {bs : List Byte} (h : Scanning s bs) :
    step s = .next (s.returned (segmentView (bs.drop s.cursor))) ∨
    ∃ p q ms sk, s.cursor < q ∧ q ≤ bs.length ∧ step s = .next (s.passed bs p q ms sk) ∧
      segmentView (bs.drop s.cursor) = (segmentView (bs.drop q)).after ms sk := by
  cases hf : findCmd bs s.cursor with
  | none =>
    have hview : segmentView (bs.drop s.cursor) = ⟨[], [], false⟩ := by
      rw [← segmentView_afterData, findCmd_none.1 hf]; rfl
    refine .inl ?_
    rw [step_busy h.calls h.busy h.bytes, hf, hview]
    simp [State.returned, State.discard, State.finish, Memory.ofBytes]
  | some p =>
    obtain ⟨hcp, -, hdrop, -⟩ := findCmd_some hf
    have hview : segmentView (bs.drop s.cursor) = segmentView (bs.drop p) := by
      rw [hdrop, segmentView_afterData]
    obtain ⟨c, d, tail, he⟩ := exists_examines h.calls h.busy h.bytes hf
    rcases framed_or_open d he.command he.stops with ⟨ms, sk, rest, hframed⟩ | ⟨rfl, hopen⟩
    · rw [← he.shape] at hframed
      obtain ⟨q, hpq, hq, rfl, hstep⟩ := hframed.step_eq h hf
      exact .inr ⟨p, q, ms, sk, by omega, hq, hstep, hview.trans hframed.segmentView_eq⟩
    · have hshape : bs.drop p = c :: d.map byteOf := by rw [he.shape, List.append_nil]
      have hself : segmentView (bs.drop p) = ⟨[], bs.drop p, false⟩ := by
        rw [hshape]; exact segmentView_of_open he.command hopen
      refine .inl ?_
      rw [he.step_open hopen, hview, hself]
      simp [State.returned, State.finish, State.compact, State.latch, h.mem, h.count]

/-! ## Runs -/

theorem run_add {M : Host.Core} {m : Nat} {s t : M.State} (h : M.run m s = .next t) (n : Nat) :
    M.run (m + n) s = M.run n t := by
  induction m generalizing s with
  | zero => rw [Nat.zero_add, Host.Outcome.next.inj h]
  | succ m ih =>
    obtain ⟨u, hu, hrun⟩ := run_succ_next h
    rw [Nat.add_right_comm, run_of_next hu, ih hrun]

theorem run_of_fixed {M : Host.Core} {s : M.State} (h : M.step s = .next s) (n : Nat) : M.run n s = .next s := by
  induction n with
  | zero => rfl
  | succ n ih => rw [run_of_next h, ih]

/-- A run ends in one state at most that steps to itself. -/
theorem run_fixed_unique {M : Host.Core} {m n : Nat} {s t u : M.State} (ht : M.run m s = .next t)
    (hu : M.run n s = .next u) (hft : M.step t = .next t) (hfu : M.step u = .next u) : t = u := by
  have h : M.run (m + n) s = M.run (n + m) s := by rw [Nat.add_comm]
  rw [run_add ht, run_add hu, run_of_fixed hft, run_of_fixed hfu] at h
  exact Host.Outcome.next.inj h

theorem State.Inv.of_run {n : Nat} {s t : State} (hs : s.Inv) (h : Host.Core.run Sys2Proof.core n s = .next t) :
    t.Inv := by
  induction n generalizing s with
  | zero => exact Host.Outcome.next.inj h ▸ hs
  | succ n ih =>
    obtain ⟨u, hu, hrun⟩ := run_succ_next h
    exact ih (hs.of_step hu) hrun

/-- The passes of a PROCESS make the segment view of the bytes from the cursor on, one pass for each byte at most and one
to return (R73, R74). -/
theorem Scanning.run_view {s : State} {bs : List Byte} (h : Scanning s bs) :
    ∃ k, k ≤ bs.length - s.cursor + 1 ∧
      Host.Core.run Sys2Proof.core k s = .next (s.returned (segmentView (bs.drop s.cursor))) := by
  induction hl : bs.length - s.cursor using Nat.strong_induction_on generalizing s with
  | _ n ih =>
    subst hl
    rcases h.step_view with hret | ⟨p, q, ms, sk, hlt, hle, hstep, hview⟩
    · exact ⟨1, Nat.le_add_left 1 _, run_of_next (M := Sys2Proof.core) hret 0⟩
    · have hq : (s.passed bs p q ms sk).cursor = q := rfl
      obtain ⟨k, hk, hrun⟩ := ih (bs.length - q) (by omega) (h.passed p q ms sk) (by rw [hq])
      refine ⟨k + 1, by omega, ?_⟩
      rw [run_of_next (M := Sys2Proof.core) hstep k, hrun, State.returned_passed, hview, hq]

/-! ## One PROCESS -/

theorem step_process {s : State} {data : List Byte} {rs : List Request} (hc : s.calls = []) (hb : s.busy = false)
    (hi : s.initialised = true) (hr : s.requests = .process data :: rs) :
    step s = .next (State.startProcess data { s with requests := rs }) := by
  rw [step_idle hc hb, hr]
  exact accept_process (s := { s with requests := rs }) hb hi data

/-- The start of a PROCESS with at least one byte puts the block into its loop, over the valid bytes with what fits. -/
theorem State.Inv.scanning_startProcess {s : State} (hs : s.Inv) (hc : s.calls = []) {data : List Byte}
    (hd : data ≠ []) : Scanning (s.startProcess data) (s.valid ++ data.take (s.room data.length)) := by
  obtain ⟨hm, hn⟩ := State.append_buffer hs.cells data
  rw [State.startProcess_of_ne_nil s hd]
  exact ⟨hc, rfl, hm, hn⟩

/-- The loop of a PROCESS with at least one byte makes the segment view of the valid bytes with what fits. -/
theorem State.Inv.run_startProcess {s : State} (hs : s.Inv) (hc : s.calls = []) {data : List Byte} (hd : data ≠ []) :
    ∃ k, k ≤ s.count + s.room data.length + 1 ∧
      Host.Core.run Sys2Proof.core k (s.startProcess data) =
        .next ((s.startProcess data).returned (segmentView (s.valid ++ data.take (s.room data.length)))) := by
  have hscan := hs.scanning_startProcess hc hd
  obtain ⟨k, hk, hrun⟩ := hscan.run_view
  have hcount : (s.startProcess data).count = s.count + s.room data.length := by
    rw [State.startProcess_of_ne_nil s hd]; rfl
  have hcursor : (s.startProcess data).cursor = 0 := by rw [State.startProcess_of_ne_nil s hd]
  rw [← hscan.count, hcount, hcursor] at hk
  rw [hcursor, List.drop_zero] at hrun
  exact ⟨k, hk, hrun⟩

/-- Settles O49: the acceptance of the PROCESS, then the passes of its loop. -/
theorem processIsTheSegmentView : Obligations.ProcessIsTheSegmentView := by
  rintro s data rs n v hs hb hc hr hd rfl rfl
  obtain ⟨k, hk, hrun⟩ := (hs.with_requests rs).run_startProcess hc hd
  refine ⟨k, hk, ?_⟩
  rw [Nat.add_comm, run_of_next (M := Sys2Proof.core) (step_process hc hb hs.live hr) k, hrun,
    State.startProcess_of_ne_nil _ hd]
  simp only [State.returned, hb]
  rfl

/-! ## A run of PROCESS transactions -/

/-- What has come of the bytes so far: the messages emitted, the bytes held and the flag `SKIP`. -/
def State.output (s : State) : View := ⟨s.emits.map EmitEvent.msg, s.valid, s.skip⟩

/-- A state that holds what the view `v` leaves, and has emitted its messages and taken its skip since `s`. -/
theorem State.output_of_view {s t : State} {v : View} {x : Nat} (hm : t.mem = Memory.ofBytes v.rest)
    (hc : t.count = v.rest.length) (he : t.emits = s.emits ++ v.msgs.map fun m => ⟨x, m⟩)
    (hk : t.skip = (s.skip || v.skip)) : t.output = v.after s.output.msgs s.output.skip := by
  simp [State.output, View.after, (State.valid_of_ofBytes hm hc).2, he, hk, Function.comp_def]

/-- From `s` to `t` the block has taken the bytes `bs`: if none was dropped, what has come of them is the segment view of
the bytes held with `bs` after them. -/
def Takes (bs : List Byte) (s t : State) : Prop :=
  t.ovf = false → s.ovf = false ∧
    t.output = (segmentView (s.valid ++ bs)).after s.output.msgs s.output.skip

/-- The block is idle, and the host will ask for one PROCESS after another, with these chunks. -/
structure Awaits (cs : List (List Byte)) (s : State) : Prop where
  sound : s.Inv
  busy : s.busy = false
  calls : s.calls = []
  requests : s.requests = cs.map .process

theorem Takes.trans {bs more : List Byte} {s t u : State} (h₁ : Takes bs s t) (h₂ : Takes more t u) :
    Takes (bs ++ more) s u := by
  intro hu
  obtain ⟨ht, hout₂⟩ := h₂ hu
  obtain ⟨hs, hout₁⟩ := h₁ ht
  refine ⟨hs, ?_⟩
  have hvalid : t.valid = (segmentView (s.valid ++ bs)).rest := congrArg View.rest hout₁
  rw [hout₂, hout₁, hvalid, ← List.append_assoc, segmentView_append (s.valid ++ bs) more, View.after_after]
  rfl

/-- The block has taken no byte while its output and its flags stay. -/
theorem Awaits.takes_nil {cs : List (List Byte)} {s t : State} (h : Awaits cs s) (hout : t.output = s.output)
    (hovf : t.ovf = s.ovf) : Takes [] s t := by
  intro ht
  refine ⟨hovf ▸ ht, ?_⟩
  rw [List.append_nil, segmentView_of_headIncomplete (h.sound.head h.busy), hout]
  simp [View.after, State.output]

/-- The PROCESS of one chunk takes it, and the block awaits the next. -/
theorem Awaits.run_chunk {c : List Byte} {cs : List (List Byte)} {s : State} (h : Awaits (c :: cs) s) :
    ∃ k t, Host.Core.run Sys2Proof.core k s = .next t ∧ Awaits cs t ∧ Takes c s t := by
  by_cases hc : c = []
  · subst hc
    have hstep := step_process h.calls h.busy h.sound.live h.requests
    refine ⟨1, _, run_of_next (M := Sys2Proof.core) hstep 0, ⟨h.sound.of_step hstep, h.busy, h.calls, rfl⟩, ?_⟩
    exact h.takes_nil rfl rfl
  · obtain ⟨k, -, hrun⟩ :=
      processIsTheSegmentView s c (cs.map .process) _ _ h.sound h.busy h.calls h.requests hc rfl rfl
    refine ⟨1 + k, _, hrun, ⟨h.sound.of_run hrun, h.busy, h.calls, rfl⟩, fun hovf => ?_⟩
    obtain ⟨hs, hfits⟩ := Bool.or_eq_false_iff.1 hovf
    have hall : c.take (min c.length (s.cap - s.count)) = c :=
      List.take_of_length_le (not_lt.1 (of_decide_eq_false hfits))
    exact ⟨hs, (State.output_of_view rfl rfl rfl rfl).trans (by rw [hall])⟩

/-- The PROCESS transactions of all the chunks take their bytes, and the block comes to rest. -/
theorem Awaits.run_chunks {cs : List (List Byte)} {s : State} (h : Awaits cs s) :
    ∃ k t, Host.Core.run Sys2Proof.core k s = .next t ∧ Awaits [] t ∧ Takes cs.flatten s t := by
  induction cs generalizing s with
  | nil => exact ⟨0, s, rfl, h, h.takes_nil rfl rfl⟩
  | cons c cs ih =>
    obtain ⟨k, t, hrun, ht, htake⟩ := h.run_chunk
    obtain ⟨l, u, hrun', hu, htake'⟩ := ih ht
    exact ⟨k + l, u, (run_add hrun l).trans hrun', hu, htake.trans htake'⟩

/-- An idle block of which nothing is asked steps to itself. -/
theorem step_fixed {s : State} (hc : s.calls = []) (hb : s.busy = false) (hr : s.requests = []) : step s = .next s := by
  rw [step_idle hc hb, hr]

/-- Wherever a run of these transactions comes to rest, the block has taken the bytes. -/
theorem Awaits.takes_of_quiet {cs : List (List Byte)} {s t : State} {k : Nat} (h : Awaits cs s)
    (hrun : Host.Core.run Sys2Proof.core k s = .next t) (hq : t.quiet = true) : Takes cs.flatten s t := by
  obtain ⟨l, u, hrun', hu, htake⟩ := h.run_chunks
  simp only [State.quiet, Bool.and_eq_true, Bool.not_eq_true', List.isEmpty_iff] at hq
  obtain ⟨⟨hbusy, hcalls⟩, hreq⟩ := hq
  have htu : t = u := run_fixed_unique (M := Sys2Proof.core) hrun hrun' (step_fixed hcalls hbusy hreq)
    (step_fixed hu.calls hu.busy hu.requests)
  exact htu ▸ htake

/-- Settles O50: both runs come to rest with the segment view of the bytes held at first and all the chunks. -/
theorem chunkingDoesNotMatter : Obligations.ChunkingDoesNotMatter := by
  intro s t u cs ds k l hs hb hc _ hflat ht hu hqt hqu hot hou
  have awaits (xs : List (List Byte)) : Awaits xs { s with requests := xs.map .process } :=
    ⟨hs.with_requests _, hb, hc, rfl⟩
  obtain ⟨-, houtt⟩ := (awaits cs).takes_of_quiet ht hqt hot
  obtain ⟨-, houtu⟩ := (awaits ds).takes_of_quiet hu hqu hou
  have hout : t.output = u.output := by
    rw [houtt, houtu, hflat]
    rfl
  exact ⟨congrArg View.msgs hout, congrArg View.rest hout, congrArg View.skip hout⟩

/-! ## A single pass -/

/-- In the condition INCOMPLETE the segment is moved to index 0 and the PROCESS returns (R68, R153). -/
theorem exec_isIncomplete {i : Instr} (h : isIncomplete i = true) (s : State) :
    exec i s = .next (s.compact s.lat.s).finish := by
  unfold isIncomplete at h
  split at h
  · rename_i c sp hi
    have hspan : completeSpan c sp = false := by simpa [completeSpan] using h
    rw [exec_decodeChannel s (decodeChannel_iff.2 hi), frameChannel_incomplete s hspan]
  · split at h
    · rfl
    · cases h

/-- Settles O12: FindCmd finds nothing, and the pass is DISCARD and the return. -/
theorem scanWithoutCommandByteEmptiesTheBuffer : Obligations.ScanWithoutCommandByteEmptiesTheBuffer := by
  intro s bs hc hb hv hdata
  refine ⟨s.discard.finish, ?_, rfl, rfl, rfl, rfl, rfl, rfl, rfl⟩
  rw [step_busy hc hb hv, (findCmd_eq_none_iff bs s.cursor).2 hdata]

/-- Settles O30, by what COMPACT leaves in each cell. -/
theorem incompleteInstructionIsRetained : Obligations.IncompleteInstructionIsRetained :=
  fun _ s hi => ⟨_, exec_isIncomplete hi s, rfl, rfl, rfl, rfl, rfl, rfl, fun _ => s.read_compact⟩

/-- Settles O44: a pass that finds a command byte advances past it over the same buffer, or retains its segment. -/
theorem everyPassReturnsOrAdvances : Obligations.EveryPassReturnsOrAdvances := by
  intro s t hs hc hb h
  refine ⟨?_, ?_⟩
  · cases step_next h with
    | called _ _ _ _ hcall => rw [hc] at hcall; cases hcall
    | emptied => exact .inl rfl
    | examined bs p i _ _ _ hv hf =>
      obtain ⟨c, d, tail, he⟩ := exists_examines hc hb hv hf
      rcases he.advances_or_retains h with ⟨hsame, -, hpass, hle⟩ | ⟨-, -, rfl⟩
      · have hlen : bs.length = t.count := by
          rw [hs.bytes_eq hv, (State.buffer_of_cells hs.cells).2.2, hsame.count]
        exact .inr ⟨he.cursor_le.trans_lt hpass, hlen ▸ hle, hsame.count⟩
      · exact .inl rfl
    | accepted _ _ _ _ hidle => rw [hb] at hidle; cases hidle
    | waited _ hidle => rw [hb] at hidle; cases hidle
  · rcases step_emits h with he | ⟨m, he⟩
    · rw [he]; exact Nat.le_succ _
    · rw [he, List.length_append]; rfl

/-- Settles O9: the latches of the pass are those the statement writes out. -/
theorem busyStepRunsTheDecodedInstruction : Obligations.BusyStepRunsTheDecodedInstruction := by
  intro s bs p i hc hb hv hf hd
  obtain ⟨c, d, tail, he⟩ := exists_examines hc hb hv hf
  rw [he.step_eq hd, State.latch, latchesAt]
  cases findCmd bs (p + 1) <;> rfl

/-- Settles O32: only the count of transactions differs. -/
theorem emptyProcessIsANoOp : Obligations.EmptyProcessIsANoOp :=
  fun s hb hi => ⟨s.txn + 1, accept_process hb hi []⟩

end Sys2Proof.Machine

/-!
PROOFS. The channel commands (41_channel_commands.md). Every row frames its segment as R80 says, with the command byte,
`Need` and `Class` of the row.
-/

namespace Sys2Proof.Machine

/-- A row that frames its segment under command byte `c` is R80 with `Need(c)` and `Class(c)` (R47, R48). -/
theorem channelRow_of_frames {mk : Span → Instr} {c : Byte} (hx : ∀ sp s, exec (mk sp) s = frameChannel c sp s) :
    ChannelRow mk c (need c) (classOf c) := by
  refine ⟨fun sp s h => ?_, fun sp s hopen hlt => ?_⟩
  · have hspan : completeSpan c sp = true := by simpa [completeSpan] using h
    exact (hx sp s).trans (frameChannel_complete s hspan)
  · have hspan : completeSpan c sp = false := by simpa [completeSpan, hopen] using hlt
    exact (hx sp s).trans (frameChannel_incomplete s hspan)

/-- The rows with operand bits `x`, the channel or the lowest bit: `b x` is the byte that the row frames under, `c x`
another spelling of it, and `Need` and `Class` are the same for every `x`. -/
theorem channelRow_of_operand {w : Nat} {mk : BitVec w → Span → Instr} {b c : BitVec w → Byte} {n : Nat}
    {cls : MsgClass} (hx : ∀ x sp s, exec (mk x sp) s = frameChannel (b x) sp s)
    (ht : ∀ x, b x = c x ∧ need (c x) = n ∧ classOf (c x) = cls) (x : BitVec w) : ChannelRow (mk x) (c x) n cls := by
  obtain ⟨hb, rfl, rfl⟩ := ht x
  exact channelRow_of_frames (hb ▸ hx x)

/-! ## The statements -/

/-- Settles O14: nibbles 9 and E need two arguments and have the update classes. -/
theorem updateMessagesAreFramed : Obligations.UpdateMessagesAreFramed :=
  forall_and.2 ⟨channelRow_of_operand (fun _ _ _ => rfl) (by decide),
    channelRow_of_operand (fun _ _ _ => rfl) (by decide)⟩

/-- Settles O15: nibbles C and D need one argument. -/
theorem streamTogglesAreFramed : Obligations.StreamTogglesAreFramed :=
  forall_and.2 ⟨channelRow_of_operand (fun _ _ _ => rfl) (by decide),
    channelRow_of_operand (fun _ _ _ => rfl) (by decide)⟩

/-- Settles O16: three rows of one command byte, whose `Need` and `Class` compute. -/
theorem pinAndVersionMessagesAreFramed : Obligations.PinAndVersionMessagesAreFramed :=
  ⟨channelRow_of_frames fun _ _ => rfl, channelRow_of_frames fun _ _ => rfl, channelRow_of_frames fun _ _ => rfl⟩

/-- Settles O17: nibbles 8, A and B need two arguments and have class `other`. -/
theorem unassignedNibblesAreFramed : Obligations.UnassignedNibblesAreFramed :=
  forall_and.2 ⟨channelRow_of_operand (fun _ _ _ => rfl) (by decide), forall_and.2
    ⟨channelRow_of_operand (fun _ _ _ => rfl) (by decide), channelRow_of_operand (fun _ _ _ => rfl) (by decide)⟩⟩

/-- Settles O18: four rows of one command byte, and three of two that differ in the lowest bit. -/
theorem unassignedSystemBytesAreFramed : Obligations.UnassignedSystemBytesAreFramed :=
  ⟨channelRow_of_frames fun _ _ => rfl,
    channelRow_of_operand (fun _ _ _ => rfl) (by decide),
    channelRow_of_frames fun _ _ => rfl,
    channelRow_of_frames fun _ _ => rfl,
    channelRow_of_operand (fun _ _ _ => rfl) (by decide),
    channelRow_of_operand (fun _ _ _ => rfl) (by decide),
    channelRow_of_frames fun _ _ => rfl⟩

/-- Settles O19: outside a sysex 0xF7 is framed by R80 as any other command byte. -/
theorem straySysexEndIsFramed : Obligations.StraySysexEndIsFramed :=
  channelRow_of_frames fun _ _ => rfl

/-- Settles O20: `Need` of 0xFF is 0, so that every segment is complete and no data byte is an argument. -/
theorem systemResetIsOnlyAMessage : Obligations.SystemResetIsOnlyAMessage := by
  intro sp s
  have hrow : ChannelRow .systemReset 0xFF#8 0 .reset := channelRow_of_frames fun _ _ => rfl
  simpa using hrow.1 sp s (.inr (Nat.zero_le _))

end Sys2Proof.Machine

/-!
PROOFS. Sysex (42_sysex.md). What follows the span decides the row of a 0xF0; a subcommand row frames its payload as
R104 says; and only a pass over a framed head emits, so that an emitted payload stood in the buffer with the three bytes
of its frame.
-/

namespace Sys2Proof.Machine

/-! ## The rows -/

/-- A sysex with a subcommand is decoded by its subcommand (R51, R104). -/
theorem decodeStream_subcommand (sub : Group) (p : List Group) (rest : List Byte) :
    decodeStream (0xF0#8 :: byteOf sub :: (p.map byteOf ++ 0xF7#8 :: rest)) = .ok (decodeSub sub p) :=
  decodeStream_span (sub :: p) (stopsData_cons rest rfl)

/-- A row that frames its payload under subcommand `sub` is R104 for that subcommand. -/
theorem sysexRow_of_frames {mk : List Group → Instr} {sub : Group}
    (hx : ∀ p s, exec (mk p) s = frameSysex sub p s) : SysexRow mk sub :=
  hx

/-! ## The payload of an emitted sysex -/

/-- A sysex that comes of a stream's head stood there with its 0xF0, its subcommand and its 0xF7 (R41). -/
theorem Framed.sysex_length_le {bs rest : List Byte} {ms : List Message} {sk : Bool} (h : Framed bs ms sk rest)
    {sub : Group} {payload : List Group} (hm : .sx sub payload ∈ ms) : payload.length + 3 ≤ bs.length := by
  cases h with
  | channel => simp at hm
  | skip => simp at hm
  | sysex d r =>
    cases d with
    | nil => simp [sysexMessages] at hm
    | cons sub' payload' =>
      obtain ⟨rfl, rfl⟩ : sub = sub' ∧ payload = payload' := by simpa [sysexMessages] using hm
      simp only [List.map_cons, List.length_cons, List.length_append, List.length_map]
      omega

/-- Only a pass that examines a segment emits (R71, R72). -/
theorem exists_examines_of_emits {s t : State} {e : EmitEvent} (h : step s = .next t)
    (he : t.emits = s.emits ++ [e]) : ∃ bs p c d tail, Examines s bs p c d tail := by
  have silent (hs : t.emits = s.emits) : False := by simp [hs] at he
  cases step_next h with
  | called c cs i _ _ hd hx =>
    obtain ⟨r, rfl⟩ := exec_isUnpack hx (decodeCall_isUnpack hd)
    exact (silent rfl).elim
  | emptied => exact (silent rfl).elim
  | examined bs p i _ hc hb hv hf => exact ⟨bs, p, exists_examines hc hb hv hf⟩
  | accepted r rs _ _ _ _ hx =>
    obtain ⟨-, ⟨-, rfl⟩ | ⟨data, -, -, rfl⟩ | ⟨-, rfl⟩⟩ := accept_next hx
    · exact (silent rfl).elim
    · exact (silent (by unfold State.startProcess; split <;> rfl)).elim
    · exact (silent rfl).elim
  | waited => exact (silent rfl).elim

/-- The loop of a sound state that is busy runs over its valid bytes. -/
theorem State.Inv.scanning_valid {s : State} (hs : s.Inv) (hc : s.calls = []) (hb : s.busy = true) :
    Scanning s s.valid := by
  obtain ⟨-, hm, hl⟩ := State.buffer_of_cells hs.cells
  exact ⟨hc, hb, hm, hl.symm⟩

/-- An emitted sysex stood in the valid bytes with the three bytes of its frame. -/
theorem State.Inv.sysex_length_le {s t : State} (hs : s.Inv) (h : step s = .next t) {x : Nat} {sub : Group}
    {payload : List Group} (he : t.emits = s.emits ++ [⟨x, .sx sub payload⟩]) : payload.length + 3 ≤ s.count := by
  obtain ⟨bs, p, c, d, tail, hx⟩ := exists_examines_of_emits h he
  obtain rfl := hs.bytes_eq hx.bytes
  rcases framed_or_open d hx.command hx.stops with ⟨ms, sk, rest, hframed⟩ | ⟨rfl, hopen⟩
  · rw [← hx.shape] at hframed
    obtain ⟨q, -, -, -, hstep⟩ := hframed.step_eq (hs.scanning_valid hx.calls hx.busy) hx.found
    obtain rfl := Host.Outcome.next.inj (hstep.symm.trans h)
    have hms : ms.map (EmitEvent.mk s.txn) = [⟨x, .sx sub payload⟩] := List.append_cancel_left he
    have hmem : .sx sub payload ∈ ms := by
      obtain ⟨m, hm, heq⟩ := List.mem_map.1 (hms ▸ List.mem_singleton_self _)
      exact (EmitEvent.mk.inj heq).2 ▸ hm
    calc payload.length + 3 ≤ (s.valid.drop p).length := hframed.sysex_length_le hmem
      _ ≤ s.valid.length := by rw [List.length_drop]; exact Nat.sub_le _ _
      _ = s.count := (State.buffer_of_cells hs.cells).2.2
  · obtain rfl := Host.Outcome.next.inj ((hx.step_open hopen).symm.trans h)
    simp at he

/-! ## The statements -/

/-- Settles O3, by what stands after the span and then by the subcommand. -/
theorem sysexFormsFallInTheirRows : Obligations.SysexFormsFallInTheirRows := by
  refine ⟨fun d => ?_, fun d e rest he h7 => ?_, fun _ => rfl, fun sub p rest i hi => ?_,
    fun sub p rest => ⟨_, decodeStream_subcommand sub p rest⟩⟩
  · simpa [decodeSysex] using decodeStream_span d stopsData_nil
  · rw [decodeStream_span d (stopsData_cons rest he), decodeSysex_unterminated d rest h7]
  · obtain rfl := Except.ok.inj ((decodeStream_subcommand sub p rest).symm.trans hi)
    iterate 9 refine ⟨by rintro rfl; rfl, ?_⟩
    exact fun hsub => decodeSub_of_wf (by simpa [Instr.wf, assignedSubs] using hsub)

/-- Settles O46: the payload and the three bytes of its frame stood in the buffer. -/
theorem emittedSysexFitsTheBuffer : Obligations.EmittedSysexFitsTheBuffer :=
  fun _ _ _ _ _ hs h he => Nat.le_sub_of_add_le ((hs.sysex_length_le h he).trans hs.bounded)

/-- Settles O21: the row's meaning, form by form. -/
theorem sysexStartForms : Obligations.SysexStartForms :=
  ⟨fun _ _ => rfl, fun _ _ => rfl, fun _ => rfl⟩

/-- Settles O22: every subcommand row frames its payload under its own subcommand. -/
theorem sysexSubcommandsAreFramedAlike : Obligations.SysexSubcommandsAreFramedAlike :=
  ⟨sysexRow_of_frames fun _ _ => rfl, sysexRow_of_frames fun _ _ => rfl, sysexRow_of_frames fun _ _ => rfl,
    sysexRow_of_frames fun _ _ => rfl, sysexRow_of_frames fun _ _ => rfl, sysexRow_of_frames fun _ _ => rfl,
    sysexRow_of_frames fun _ _ => rfl, sysexRow_of_frames fun _ _ => rfl, sysexRow_of_frames fun _ _ => rfl,
    fun _ => sysexRow_of_frames fun _ _ => rfl⟩

end Sys2Proof.Machine

/-!
PROOFS. The unpacker (43_unpacker.md). `unpack7` is the number of the base-128 digits that the groups are, the fields that
the operations assemble are that number, and packing gives the digits back.
-/

namespace Sys2Proof.Machine

/-! ## What an operation delivers -/

theorem exec_u14 (g0 g1 : Group) (s : State) :
    exec (.u14 g0 g1) s = .next (s.deliver (.int (fieldP14 g0 g1).toNat)) := rfl

theorem exec_s14 (g0 g1 : Group) (s : State) :
    exec (.s14 g0 g1) s = .next (s.deliver (.int (fieldP14 g0 g1).toInt)) := rfl

theorem exec_u21 (g0 g1 g2 : Group) (s : State) :
    exec (.u21 g0 g1 g2) s = .next (s.deliver (.int (fieldP21 g0 g1 g2).toNat)) := rfl

theorem exec_u32 (g0 g1 g2 g3 g4 : Group) (s : State) :
    exec (.u32 g0 g1 g2 g3 g4) s = .next (s.deliver (.int (fieldP32 g0 g1 g2 g3 g4).toNat)) := rfl

theorem exec_s32 (g0 g1 g2 g3 g4 : Group) (s : State) :
    exec (.s32 g0 g1 g2 g3 g4) s = .next (s.deliver (.int (fieldP32 g0 g1 g2 g3 g4).toInt)) := rfl

theorem exec_pair (gs : List Group) (s : State) :
    exec (.pair gs) s = .next (s.deliver (.codes (pairCodes gs))) := rfl

/-! ## The common law -/

/-- The groups are the digits of a number to the base 128, group 0 first (R123). -/
theorem unpack7_eq_ofDigits (gs : List Group) : unpack7 gs = Nat.ofDigits 128 (gs.map BitVec.toNat) := by
  induction gs with
  | nil => rfl
  | cons g gs ih => rw [unpack7, ih, List.map_cons, Nat.ofDigits_cons]

theorem unpack7_lt (gs : List Group) : unpack7 gs < 2 ^ (7 * gs.length) := by
  have hdigit : ∀ d ∈ gs.map BitVec.toNat, d < 128 := by
    intro d hd
    obtain ⟨g, -, rfl⟩ := List.mem_map.1 hd
    exact g.isLt
  have hlt := Nat.ofDigits_lt_base_pow_length (by decide) hdigit
  rwa [← unpack7_eq_ofDigits, List.length_map, show 128 = 2 ^ 7 from rfl, ← pow_mul] at hlt

theorem unpack7_concat (gs : List Group) (g : Group) :
    unpack7 (gs ++ [g]) = unpack7 gs + 2 ^ (7 * gs.length) * g.toNat := by
  rw [unpack7_eq_ofDigits, List.map_append, Nat.ofDigits_append, ← unpack7_eq_ofDigits, List.length_map, pow_mul]
  simp

/-- A number is read back from its `k` low groups, as far as they hold it (R132, R133). -/
theorem unpack7_groupAt (v k : Nat) : unpack7 ((List.range k).map (groupAt v)) = v % 2 ^ (7 * k) := by
  induction k with
  | zero => simp [unpack7, Nat.mod_one]
  | succ k ih =>
    have hdigit : (groupAt v k).toNat = v / 2 ^ (7 * k) % 2 ^ 7 := BitVec.toNat_ofNat _ _
    rw [List.range_succ, List.map_append, List.map_singleton, unpack7_concat, ih, List.length_map, List.length_range,
      hdigit, ← Nat.mod_mul, ← pow_add, ← Nat.mul_succ]

theorem fieldP14_eq_unpack7 (g0 g1 : Group) : (fieldP14 g0 g1).toNat = unpack7 [g0, g1] := by
  simp only [fieldP14_toNat, unpack7]; omega

theorem fieldP21_eq_unpack7 (g0 g1 g2 : Group) : (fieldP21 g0 g1 g2).toNat = unpack7 [g0, g1, g2] := by
  simp only [fieldP21_toNat, unpack7]; omega

theorem fieldP32_eq_unpack7 (g0 g1 g2 g3 g4 : Group) :
    (fieldP32 g0 g1 g2 g3 g4).toNat = unpack7 [g0, g1, g2, g3, g4] % 2 ^ 32 := by
  simp only [fieldP32_toNat, unpack7]; omega

/-! ## Packed numbers -/

theorem fieldP14_groupAt (v : Nat) : fieldP14 (groupAt v 0) (groupAt v 1) = BitVec.ofNat 14 v :=
  BitVec.eq_of_toNat_eq <| (fieldP14_eq_unpack7 _ _).trans (unpack7_groupAt v 2)

theorem fieldP21_groupAt (v : Nat) : fieldP21 (groupAt v 0) (groupAt v 1) (groupAt v 2) = BitVec.ofNat 21 v :=
  BitVec.eq_of_toNat_eq <| (fieldP21_eq_unpack7 _ _ _).trans (unpack7_groupAt v 3)

theorem fieldP32_groupAt (v : Nat) :
    fieldP32 (groupAt v 0) (groupAt v 1) (groupAt v 2) (groupAt v 3) (groupAt v 4) = BitVec.ofNat 32 v := by
  have hsum : unpack7 [groupAt v 0, groupAt v 1, groupAt v 2, groupAt v 3, groupAt v 4] = v % 2 ^ 35 :=
    unpack7_groupAt v 5
  refine BitVec.eq_of_toNat_eq ?_
  rw [fieldP32_eq_unpack7, hsum, BitVec.toNat_ofNat]
  exact Nat.mod_mod_of_dvd v (by decide)

/-- Bits 6:4 of the fifth group do not count (R127). -/
theorem fieldP32_congr_top {g4 g4' : Group} (h : g4.setWidth 4 = g4'.setWidth 4) (g0 g1 g2 g3 : Group) :
    fieldP32 g0 g1 g2 g3 g4 = fieldP32 g0 g1 g2 g3 g4' := by
  have hlow : g4.toNat % 2 ^ 4 = g4'.toNat % 2 ^ 4 := by simpa using congrArg BitVec.toNat h
  refine BitVec.eq_of_toNat_eq ?_
  rw [fieldP32_toNat, fieldP32_toNat]
  omega

/-- Both spellings of the fifth group agree in the bits that count: `0x70` has none of them (R132). -/
theorem pack32Top_low (signs : Bool) (n : Int) :
    (pack32Top signs n).setWidth 4 = (groupAt (BitVec.ofInt 32 n).toNat 4).setWidth 4 := by
  rw [pack32Top, BitVec.setWidth_or]
  split
  · rw [show (0x70 : Group).setWidth 4 = 0#4 from rfl, BitVec.or_zero]
  · exact BitVec.or_zero

theorem fieldP14_pack14 (x : Int) : fieldP14 (pack14 x).1 (pack14 x).2 = BitVec.ofInt 14 x := by
  rw [pack14, fieldP14_groupAt, BitVec.ofNat_toNat, BitVec.setWidth_eq]

theorem fieldP32_pack32 (n : Int) (signs : Bool) :
    fieldP32 (pack32Low n 0) (pack32Low n 1) (pack32Low n 2) (pack32Low n 3) (pack32Top signs n) = BitVec.ofInt 32 n := by
  rw [fieldP32_congr_top (pack32Top_low signs n)]
  simp only [pack32Low, fieldP32_groupAt, BitVec.ofNat_toNat, BitVec.setWidth_eq]

/-! ## The statements -/

/-- Settles O23: U14 and U21 deliver their fields. -/
theorem unsignedFieldsUnpack : Obligations.UnsignedFieldsUnpack := by
  intro g0 g1 g2 s
  refine ⟨?_, ?_, rfl, rfl⟩
  · rw [exec_u14, fieldP14_toNat]
    rfl
  · rw [exec_u21, fieldP21_toNat]
    rfl

/-- Settles O24: S14 delivers the 14-bit field read as two's complement. -/
theorem signedFourteenBitUnpacks : Obligations.SignedFourteenBitUnpacks := by
  intro g0 g1 v s hv
  have hsigned : (fieldP14 g0 g1).toInt = if v > 8191 then v - 16384 else v := by
    rw [hv, fieldP14_toInt]
    exact if_congr (by omega) rfl rfl
  refine ⟨?_, rfl⟩
  rw [exec_s14, hsigned]
  rfl

/-- Settles O25: both operations read the same 32-bit field, S32 as two's complement. -/
theorem thirtyTwoBitUnpacks : Obligations.ThirtyTwoBitUnpacks := by
  intro g0 g1 g2 g3 g4 u s hu
  have hunsigned : ((fieldP32 g0 g1 g2 g3 g4).toNat : Int) = u := by
    rw [hu, fieldP32_toNat]
    norm_num
  have hsigned : (fieldP32 g0 g1 g2 g3 g4).toInt = if u ≥ 2 ^ 31 then u - 2 ^ 32 else u := by
    rw [fieldP32_toInt, hunsigned]
    exact if_congr (by omega) rfl rfl
  refine ⟨?_, ?_, rfl, rfl⟩
  · rw [exec_u32, hunsigned]
    rfl
  · rw [exec_s32, hsigned]
    rfl

/-- Settles O26: PAIR delivers `pairCodes`. -/
theorem pairsUnpackToCodes : Obligations.PairsUnpackToCodes :=
  fun gs s => ⟨pairCodes gs, exec_pair gs s, rfl, pairCodes_length gs, pairCodes_getD gs⟩

/-- Settles O27: the groups are base-128 digits, and each field is assembled from disjoint bits. -/
theorem fieldsAreSumsOfGroups : Obligations.FieldsAreSumsOfGroups := by
  refine ⟨unpack7_lt, fun gs g => ⟨?_, ?_⟩, fieldP14_eq_unpack7, fieldP21_eq_unpack7, fieldP32_eq_unpack7⟩
  · rw [unpack7_concat, Nat.mul_comm]
  · rw [unpack7_concat, Nat.shiftLeft_eq, or_shift_eq_add (unpack7_lt gs)]

/-- Settles O28: the field of a packed number is its bits, and each range is the range of the reading. -/
theorem unpackingAPackedNumberGivesItBack : Obligations.UnpackingAPackedNumberGivesItBack := by
  refine ⟨fun x hlo hhi => ?_, fun v hv => ?_, fun v hv => ?_, fun n signs hlo hhi => ?_⟩
  · rw [fieldP14_pack14]
    exact BitVec.toInt_ofInt_eq_self (by decide) hlo (by omega)
  · rw [fieldP14_pack14, BitVec.ofInt_natCast, BitVec.toNat_ofNat]
    omega
  · rw [pack21, fieldP21_groupAt, BitVec.toNat_ofNat]
    exact Nat.mod_eq_of_lt hv
  · rw [fieldP32_pack32]
    exact BitVec.toInt_ofInt_eq_self (by decide) hlo (by omega)

/-- Settles O11: a call that does not decode (O4) is refused by the decoder's error. -/
theorem undefinedUnpackerCallsAreRefused : Obligations.UndefinedUnpackerCallsAreRefused := by
  obtain ⟨-, -, -, -, -, -, hselect, hcount⟩ := unpackerCallsDecodeBySelectCode
  refine fun s c cs hc => ⟨fun h => ?_, fun h => ?_⟩
  · rw [step_call hc, hselect c.op c.lanes h]
  · rw [step_call hc, hcount c.op c.lanes h]

end Sys2Proof.Machine

/-!
PROOFS. The reference consumer (44_consumer_contract.md). `receive` routes a message to one of six handlers or ignores
it; what a handler writes is read from the fields that the message's bytes assemble to.
-/

namespace Sys2Proof.Machine

/-! ## The routing of messages -/

theorem receive_digital {m : ChannelMessage} (h : m.cmd &&& 0xF0#8 = 0x90#8) (k : Consumer) :
    k.receive (.ch m) = k.digital m := if_pos h

theorem receive_analog {m : ChannelMessage} (h : m.cmd &&& 0xF0#8 = 0xE0#8) (k : Consumer) :
    k.receive (.ch m) = k.analog m := by
  have hdigital : m.cmd &&& 0xF0#8 ≠ 0x90#8 := by rw [h]; decide
  simp only [Consumer.receive, if_neg hdigital, if_pos h]

theorem receive_protocol {m : ChannelMessage} (h : m.cmd = 0xF9#8) (k : Consumer) :
    k.receive (.ch m) = k.protocol m := by
  have hdigital : m.cmd &&& 0xF0#8 ≠ 0x90#8 := by rw [h]; decide
  have hanalog : m.cmd &&& 0xF0#8 ≠ 0xE0#8 := by rw [h]; decide
  simp only [Consumer.receive, if_neg hdigital, if_neg hanalog, if_pos h]

/-- No other channel message is routed (R145). -/
theorem receive_channel_ignored {m : ChannelMessage} (hdigital : m.cmd &&& 0xF0#8 ≠ 0x90#8)
    (hanalog : m.cmd &&& 0xF0#8 ≠ 0xE0#8) (hprotocol : m.cmd ≠ 0xF9#8) (k : Consumer) : k.receive (.ch m) = k := by
  simp only [Consumer.receive, if_neg hdigital, if_neg hanalog, if_neg hprotocol]

@[simp] theorem receive_event (p : List Group) (k : Consumer) : k.receive (.sx 0x0D#7 p) = k.event p := rfl

@[simp] theorem receive_debug (p : List Group) (k : Consumer) : k.receive (.sx 0x0E#7 p) = k.debug p := rfl

@[simp] theorem receive_firmware (p : List Group) (k : Consumer) : k.receive (.sx 0x79#7 p) = k.firmware p := rfl

/-- No other subcommand is routed (R145). -/
theorem receive_subcommand_ignored {sub : Group} (hevent : sub ≠ 0x0D#7) (hdebug : sub ≠ 0x0E#7)
    (hfirmware : sub ≠ 0x79#7) (p : List Group) (k : Consumer) : k.receive (.sx sub p) = k := by
  simp only [Consumer.receive, if_neg hevent, if_neg hdebug, if_neg hfirmware]

/-! ## What a handler writes -/

/-- A message whose channel is `cmd[3:0]` names the port or channel by the command byte's low digit (R45). -/
theorem chan_toNat {m : ChannelMessage} (h : m.chan = m.cmd.setWidth 4) : m.chan.toNat = m.cmd.toNat % 16 := by
  rw [h, BitVec.toNat_setWidth]

/-- The eight bits of a port go to the eight pins whose number has the port as its quotient by 8 (R138). -/
theorem setPins_range_getElem (port : Nat) (v : BitVec 14) (pins : Vector Bool 21) (pin : Nat) (hp : pin < 21) :
    (setPins port v (List.range 8) pins)[pin] = if pin / 8 = port then v.getLsbD (pin % 8) else pins[pin] := by
  have hmem : (∃ b ∈ List.range 8, 8 * port + b = pin) ↔ pin / 8 = port := by
    constructor
    · rintro ⟨b, hb, rfl⟩
      have hb8 := List.mem_range.1 hb
      omega
    · intro hport
      exact ⟨pin % 8, List.mem_range.2 (Nat.mod_lt _ (by decide)), by omega⟩
  rw [setPins_getElem, if_congr hmem rfl rfl]
  refine if_ctx_congr Iff.rfl (fun hport => ?_) fun _ => rfl
  rw [show pin - 8 * port = pin % 8 by omega]

/-- A digital-port update leaves the rest of the consumer as it was (R138). -/
theorem Consumer.digital_frame (m : ChannelMessage) (k : Consumer) :
    { k.digital m with digitalInput := k.digitalInput } = k := by
  rw [Consumer.digital]

/-- The bits of the combined value are those of `arg1 + 2^7 arg2` (R124, R138). -/
theorem fieldP14_getLsbD (g0 g1 : Group) (i : Nat) :
    (fieldP14 g0 g1).getLsbD i = (g0.toNat + 2 ^ 7 * g1.toNat).testBit i := by
  rw [← BitVec.testBit_toNat, fieldP14_toNat]
  rfl

theorem Consumer.protocol_eq (m : ChannelMessage) (k : Consumer) : k.protocol m = { k with
    firmataVersion := ("Firmata Protocol ".toList ++ Nat.toDigits 10 m.arg1.toNat ++ ['.'] ++
      Nat.toDigits 10 m.arg2.toNat).map .char } := by
  simp only [List.map_append]
  rfl

theorem Consumer.firmware_cons (major minor : Group) (name : List Group) (k : Consumer) :
    k.firmware (major :: minor :: name) = { k with
      firmwareVersion := (pairCodes name).map .code ++
        ([' '] ++ Nat.toDigits 10 major.toNat ++ ['.'] ++ Nat.toDigits 10 minor.toNat).map .char } := by
  simp only [List.map_append, ← List.append_assoc]
  rfl

/-- The two identifiers of a payload of six bytes, each the sum of its groups (R126, R142). -/
theorem identifier_of_six (a b c d e f : Group) :
    identifier [a, b, c, d, e, f] 0 = a.toNat + 2 ^ 7 * b.toNat + 2 ^ 14 * c.toNat ∧
    identifier [a, b, c, d, e, f] 1 = d.toNat + 2 ^ 7 * e.toNat + 2 ^ 14 * f.toNat :=
  ⟨fieldP21_toNat a b c, fieldP21_toNat d e f⟩

/-! ## The statements -/

/-- Settles O51: a pin is written exactly when its quotient by 8 is the port. -/
theorem consumerDigitalUpdate : Obligations.ConsumerDigitalUpdate := by
  intro k m pin hp hcmd hchan
  rw [receive_digital hcmd]
  refine ⟨?_, k.digital_frame m⟩
  simp only [Consumer.digital, setPins_range_getElem, chan_toNat hchan, fieldP14_getLsbD]

/-- Settles O52: the channel named by the command byte takes the field read as two's complement. -/
theorem consumerAnalogUpdate : Obligations.ConsumerAnalogUpdate := by
  intro k m v j hj hcmd hchan hv
  rw [receive_analog hcmd]
  refine ⟨?_, rfl, rfl⟩
  have hsigned : (fieldP14 m.arg1 m.arg2).toInt = if v > 8191 then v - 16384 else v := by
    rw [hv, fieldP14_toInt]
    exact if_congr (by omega) rfl rfl
  simp only [Consumer.analog, Vector.getElem_setIfInBounds, chan_toNat hchan, hsigned]
  exact if_congr eq_comm rfl rfl

/-- Settles O54: the two templates, the name by `pairCodes`. -/
theorem consumerVersionReports : Obligations.ConsumerVersionReports :=
  ⟨fun k m hcmd => (receive_protocol hcmd k).trans (k.protocol_eq m),
    fun k major minor name => ⟨pairCodes name, k.firmware_cons major minor name, pairCodes_length name,
      pairCodes_getD name⟩⟩

/-- Settles O56: what is shown is `pairCodes` of the payload. -/
theorem consumerShowsDebugStrings : Obligations.ConsumerShowsDebugStrings :=
  fun k payload => ⟨pairCodes payload, receive_debug payload k, pairCodes_length payload, pairCodes_getD payload⟩

/-- Settles O53: both identifiers are the sums of their groups. -/
theorem consumerReportEvent : Obligations.ConsumerReportEvent := by
  intro k a b c d e f
  obtain ⟨hsource, hevent⟩ := identifier_of_six a b c d e f
  rw [receive_event, Consumer.event, hsource, hevent]

/-- Settles O55: what is not routed changes nothing, and a debug string changes only what has been shown. -/
theorem consumerIgnoresEverythingElse : Obligations.ConsumerIgnoresEverythingElse := by
  refine ⟨fun k _ hdigital hanalog hprotocol => receive_channel_ignored hdigital hanalog hprotocol k,
    fun k sub payload hevent hfirmware =>
      ⟨?_, fun hdebug => receive_subcommand_ignored hevent hdebug hfirmware payload k⟩⟩
  by_cases hdebug : sub = 0x0E#7
  · rw [hdebug, receive_debug]
    rfl
  · rw [receive_subcommand_ignored hevent hdebug hfirmware]

/-- Settles O57: each field of the start, and each registration, is as its definition says. -/
theorem consumerStartAndRegistration : Obligations.ConsumerStartAndRegistration :=
  ⟨fun _ _ => ⟨rfl, rfl, rfl, rfl, rfl, rfl⟩, fun _ _ => ⟨rfl, rfl⟩⟩

end Sys2Proof.Machine

/-!
PROOFS. What the block refuses, and why it never stops (60_exceptions.md). A pass of the loop over valid bytes always has
a next state; an idle block that has met a RESET takes every request.
-/

namespace Sys2Proof.Machine

/-- An idle block takes any request once a RESET was applied (R24, R169). -/
theorem exists_accept {s : State} (hb : s.busy = false) (hi : s.initialised = true) (r : Request) :
    ∃ t, accept r s = .next t := by
  cases r with
  | reset => exact ⟨_, accept_reset hb⟩
  | process data => exact ⟨_, accept_process hb hi data⟩
  | readStatus => exact ⟨_, accept_readStatus hb⟩

/-- No pass of the loop over valid bytes stops: each one returns or leaves the rest to the next (R73, R74). -/
theorem Scanning.exists_step {s : State} {bs : List Byte} (h : Scanning s bs) : ∃ t, step s = .next t := by
  rcases h.step_view with hreturn | ⟨_, _, _, _, -, -, hpass, -⟩
  · exact ⟨_, hreturn⟩
  · exact ⟨_, hpass⟩

/-- An idle block takes the request that waits first, or waits itself. -/
theorem exists_step_of_idle {s : State} (hc : s.calls = []) (hb : s.busy = false) (hi : s.initialised = true) :
    ∃ t, step s = .next t := by
  rw [step_idle hc hb]
  cases s.requests with
  | nil => exact ⟨s, rfl⟩
  | cons r rs => exact exists_accept (s := { s with requests := rs }) hb hi r

/-! ## The statements -/

/-- Settles O43: the loop of a busy block runs over its valid bytes, and an idle block has met a RESET. -/
theorem soundStateAlwaysSteps : Obligations.SoundStateAlwaysSteps := by
  intro s hs hc
  cases hb : s.busy with
  | true => exact (hs.scanning_valid hc hb).exists_step
  | false => exact exists_step_of_idle hc hb hs.live

/-- Settles O36: `accept` asks for `busy` before it looks at the request. -/
theorem busyBlockAcceptsNothing : Obligations.BusyBlockAcceptsNothing :=
  fun _ _ hb => if_pos hb

end Sys2Proof.Machine

/-!
PROOFS. RESET and the hazards (70_reset_and_hazards.md): the RESET transaction, a PROCESS before the first RESET, a call
of the unpacker at any time, and the wedge (R172), which is what a full idle buffer holds and which only a RESET ends.
-/

namespace Sys2Proof.Machine

/-! ## RESET -/

theorem step_reset {s : State} {rs : List Request} (hc : s.calls = []) (hb : s.busy = false)
    (hr : s.requests = .reset :: rs) : step s = .next (State.applyReset { s with requests := rs }) := by
  rw [step_idle hc hb, hr]
  exact accept_reset (s := { s with requests := rs }) hb

/-- A block that no RESET was applied to takes no PROCESS (R169). -/
theorem accept_process_beforeReset {s : State} (hb : s.busy = false) (hi : s.initialised = false) (data : List Byte) :
    accept (.process data) s = .refused .beforeReset := by
  simp [accept, hb, hi]

/-! ## The bytes of a wedge -/

/-- The lists of data bytes are those that carry groups. -/
theorem exists_eq_map_byteOf_iff (bs : List Byte) :
    (∃ d : List Group, bs = d.map byteOf) ↔ bs.all (fun b => !isCommand b) = true := by
  constructor
  · rintro ⟨d, rfl⟩
    simp
  · intro h
    have hdata : AllData bs := by simpa [AllData] using h
    refine ⟨bs.map groupOf, ?_⟩
    rw [List.map_map]
    exact (List.map_id bs).symm.trans (List.map_congr_left fun b hb => (byteOf_groupOf (hdata b hb)).symm)

/-- A wedged block is full with an open sysex, and its scan, if one runs, is at its start (R172). -/
theorem State.wedged_iff (s : State) :
    s.wedged = true ↔ s.count = s.cap ∧ (s.busy = true → s.cursor = 0) ∧
      ∃ d : List Group, s.bytes? = some (0xF0#8 :: d.map byteOf) := by
  have hscan : (!s.busy || decide (s.cursor = 0)) = true ↔ (s.busy = true → s.cursor = 0) := by
    cases s.busy <;> simp
  rw [State.wedged, Bool.and_eq_true, Bool.and_eq_true, decide_eq_true_eq, hscan, and_assoc]
  refine and_congr_right fun _ => and_congr_right fun _ => ?_
  cases s.bytes? with
  | none => simp
  | some bs =>
    cases bs with
    | nil => simp
    | cons c rest =>
      simp only [Bool.and_eq_true, decide_eq_true_eq, ← exists_eq_map_byteOf_iff, Option.some.injEq, List.cons.injEq,
        exists_and_left]

/-- An incomplete segment of three bytes or more is an open sysex, for no channel message needs more than two data bytes
(R19, R47). -/
theorem eq_sysex_of_headIncomplete {bs : List Byte} (h : headIncomplete bs = true) (hlen : 3 ≤ bs.length) :
    ∃ d : List Group, bs = 0xF0#8 :: d.map byteOf := by
  cases bs with
  | nil => simp at hlen
  | cons c rest =>
    simp only [headIncomplete, Bool.and_eq_true, Bool.or_eq_true, decide_eq_true_eq] at h
    obtain ⟨⟨-, hdata⟩, hopen⟩ := h
    obtain ⟨d, rfl⟩ := (exists_eq_map_byteOf_iff rest).2 hdata
    have hlong : ¬(d.map byteOf).length < need c := by
      have := need_le_two c
      rw [List.length_cons] at hlen
      omega
    exact ⟨d, by rw [hopen.resolve_right hlong]⟩

/-! ## What a step makes of a wedge -/

/-- From `s` to `t` the buffer reads the same, the scan is at its start if one runs, and nothing was emitted. -/
structure KeepsBytes (s t : State) : Prop where
  cap : t.cap = s.cap
  count : t.count = s.count
  bytes : t.bytes? = s.bytes?
  scan : t.busy = true → t.cursor = 0
  emits : t.emits = s.emits

theorem KeepsBytes.wedged {s t : State} (h : KeepsBytes s t) (hs : s.wedged = true) : t.wedged = true := by
  obtain ⟨hfull, -, hsysex⟩ := s.wedged_iff.1 hs
  exact t.wedged_iff.2 ⟨by rw [h.count, h.cap, hfull], h.scan, h.bytes ▸ hsysex⟩

theorem KeepsBytes.valid {s t : State} (h : KeepsBytes s t) : t.valid = s.valid :=
  congrArg (·.getD []) h.bytes

/-- A run of cells reads the same in memories that agree on it. -/
theorem Memory.readRun_congr {m m' : Memory} {a n : Nat} (h : ∀ i, a ≤ i → i < a + n → m.read i = m'.read i) :
    m.readRun a n = m'.readRun a n := by
  induction n generalizing a with
  | zero => rfl
  | succ n ih =>
    rw [Memory.readRun, Memory.readRun, h a le_rfl (by omega), ih fun i hlo hhi => h i (by omega) (by omega)]

/-- COMPACT(0) leaves the bytes below the count, whatever other cells hold (R30). -/
theorem State.bytes?_compact_zero (s : State) : (s.compact 0).bytes? = s.bytes? :=
  Memory.readRun_congr fun i _ hi => by
    rw [State.read_compact s (by simpa using hi), Nat.zero_add]

/-- A full buffer takes no byte of a PROCESS (R26). -/
theorem State.append_buffer_of_full {s : State} (h : s.count = s.cap) (data : List Byte) :
    (s.append data).mem = s.mem ∧ (s.append data).count = s.count := by
  simp [State.room, h, Memory.writeRun]

theorem KeepsBytes.of_startProcess {s : State} (hfull : s.count = s.cap) (hb : s.busy = false) (data : List Byte) :
    KeepsBytes s (s.startProcess data) := by
  by_cases hd : data = []
  · subst hd
    exact ⟨rfl, rfl, rfl, fun h => absurd (hb.symm.trans h) Bool.false_ne_true, rfl⟩
  · obtain ⟨hm, hc⟩ := State.append_buffer_of_full hfull data
    rw [State.startProcess_of_ne_nil s hd]
    exact ⟨rfl, hc, congrArg₂ (Memory.readRun · 0) hm hc, fun _ => rfl, rfl⟩

/-- A pass over a wedge examines the one open sysex at index 0. -/
theorem State.examines_of_wedged {s : State} (h : s.wedged = true) (hc : s.calls = []) (hb : s.busy = true) :
    ∃ bs d, Examines s bs 0 0xF0#8 d [] := by
  obtain ⟨-, hscan, d, hv⟩ := s.wedged_iff.1 h
  refine ⟨_, d, hc, hb, hv, ?_, by simp, rfl, stopsData_nil⟩
  rw [hscan hb]
  rfl

/-- A pass over a wedge moves the open sysex from index 0 to index 0 and returns (R69). -/
theorem KeepsBytes.of_pass {s t : State} (hs : s.wedged = true) (hc : s.calls = []) (hb : s.busy = true)
    (h : step s = .next t) : KeepsBytes s t := by
  obtain ⟨bs, d, he⟩ := State.examines_of_wedged hs hc hb
  obtain rfl := Host.Outcome.next.inj (he.step_sysex_open.symm.trans h)
  exact ⟨rfl, rfl, (s.latch bs 0).bytes?_compact_zero, nofun, rfl⟩

/-- Whatever a step does to a wedged block, it keeps the bytes, unless it accepts a RESET (R172). -/
theorem KeepsBytes.of_step {s t : State} (hs : s.wedged = true) (h : step s = .next t)
    (hreset : ∀ rs, ¬(s.calls = [] ∧ s.busy = false ∧ s.requests = .reset :: rs)) : KeepsBytes s t := by
  obtain ⟨hfull, hscan, -⟩ := s.wedged_iff.1 hs
  cases step_next h with
  | called c cs i _ _ hd hx =>
    obtain ⟨r, rfl⟩ := exec_isUnpack hx (decodeCall_isUnpack hd)
    exact ⟨rfl, rfl, rfl, hscan, rfl⟩
  | emptied _ hc hb | examined _ _ _ _ hc hb => exact .of_pass hs hc hb h
  | accepted r rs _ hc hb hr hx =>
    obtain ⟨-, ⟨rfl, -⟩ | ⟨data, -, -, rfl⟩ | ⟨-, rfl⟩⟩ := accept_next hx
    · exact absurd ⟨hc, hb, hr⟩ (hreset rs)
    · obtain ⟨hcap, hcount, hbytes, hcursor, hemits⟩ :=
        KeepsBytes.of_startProcess (s := { s with requests := rs }) hfull hb data
      exact ⟨hcap, hcount, hbytes, hcursor, hemits⟩
    · exact ⟨rfl, rfl, rfl, hscan, rfl⟩
  | waited => exact ⟨rfl, rfl, rfl, hscan, rfl⟩

/-! ## The statements -/

/-- Settles O34, by what RESET sets. -/
theorem resetTransactionEmptiesTheBlock : Obligations.ResetTransactionEmptiesTheBlock :=
  fun _ _ hc hb hr =>
    ⟨_, step_reset hc hb hr, rfl, rfl, rfl, rfl, rfl, rfl, rfl, rfl, rfl, rfl, Memory.read_nil⟩

/-- Settles O47: what a sound idle block holds is one incomplete segment, and a full buffer has three bytes at least. -/
theorem fullBufferIsTheWedge : Obligations.FullBufferIsTheWedge := by
  intro s hs hb hfull
  obtain ⟨hbytes, -, hlen⟩ := State.buffer_of_cells hs.cells
  have hlong : 3 ≤ s.valid.length := by rw [hlen, hfull]; exact hs.capacity
  obtain ⟨d, hd⟩ := eq_sysex_of_headIncomplete (hs.head hb) hlong
  exact s.wedged_iff.2 ⟨hfull, fun h => absurd (hb.symm.trans h) Bool.false_ne_true, d, hd ▸ hbytes⟩

/-- Settles O48: APPEND finds no room, and a pass retains the sysex where it stands; `OVF` is set as O39 says. -/
theorem wedgeLastsUntilReset : Obligations.WedgeLastsUntilReset := by
  intro s t hs h hreset
  have hk := KeepsBytes.of_step hs h hreset
  refine ⟨hk.wedged hs, hk.valid, hk.emits, fun data rs hc hb hr hd => ?_⟩
  obtain ⟨hfull, -, -⟩ := s.wedged_iff.1 hs
  have hdrop : s.cap - s.count < data.length := by
    rw [hfull, Nat.sub_self]
    exact List.length_pos_iff.2 hd
  exact (flagsAreSticky s t h hreset).1.2 (.inr ⟨data, rs, hc, hb, hr, hdrop⟩)

/-- Settles O10: the fetch looks at the calls first. -/
theorem unpackerCallIsServedAtAnyTime : Obligations.UnpackerCallIsServedAtAnyTime := by
  intro s c cs i hc hd
  have hcall : decodeCall c.op c.lanes = .ok i := hd
  rw [step_call hc, hcall]

/-- Settles O37: an idle block takes the first request, and only a RESET sets the bit a PROCESS asks for. -/
theorem processBeforeTheFirstResetIsRefused : Obligations.ProcessBeforeTheFirstResetIsRefused := by
  refine fun s data rs hc hb hi => ⟨fun hr => ?_, fun hr => ⟨_, step_reset hc hb hr, rfl⟩⟩
  rw [step_idle hc hb, hr]
  exact accept_process_beforeReset (s := { s with requests := rs }) hb hi data

end Sys2Proof.Machine
